-- ==== Sys2Proof/Word.lean ====
section
/-! DEFINITION. The words of the block and the two closed value sets its commands carry
(spec/00_scope.md R5, R7; spec/30_encoding.md R60, R63, R64). -/

namespace Sys2Proof

/-- A command word, CMD_W = 8 bits (R5, R60), and one byte of session memory (R40). -/
abbrev Byte := BitVec 8

/-- COUNTER_W = 16 bits: TCNT, ICR, PW, RDTMP (R5); also a response (R31). -/
abbrev Word := BitVec 16

/-- HANDLER_W = 4 bits: a handler identifier, and SLOT (R5, R17). -/
abbrev HandlerId := BitVec 4

/-- The polarity of a transition on the echo input, and the armed polarity EDGE (R14, R63). -/
inductive Edge where
  | falling
  | rising
deriving DecidableEq, Repr, Inhabited

/-- The six prescaler settings, in the order of their codes 0 to 5 (R13, R64). -/
inductive Prescaler where
  | off
  | div1
  | div8
  | div64
  | div256
  | div1024
deriving DecidableEq, Repr, Inhabited

end Sys2Proof
end

