-- ==== Sys2Proof/Syntax.lean ====
section
/-! DEFINITION. The block's eight commands, one constructor per row of the opcode map
(spec/30_encoding.md R66). Events and micro-steps have no encoding and are not here (R72). -/

namespace Sys2Proof

/-- One command of the command port (R66). -/
inductive Instr where
  /-- `ICU_INIT edge, presc` (spec/41_capture_unit.md R92). -/
  | icuInit (edge : Edge) (presc : Prescaler)
  /-- `ICU_SET_EDGE edge` (R93). -/
  | icuSetEdge (edge : Edge)
  /-- `ICU_GET_CAPTURE` (R94). -/
  | icuGetCapture
  /-- `ICU_CLEAR_COUNTER` (R95). -/
  | icuClearCounter
  /-- `ICU_REGISTER h` (spec/40_callback_registry.md R81). -/
  | icuRegister (h : HandlerId)
  /-- `ICU_DEINIT` (R96). -/
  | icuDeinit
  /-- `US_INIT` (spec/42_echo_ranging.md R111). -/
  | usInit
  /-- `US_READ_DISTANCE` (R112). -/
  | usReadDistance
deriving DecidableEq, Repr

end Sys2Proof
end

