-- ==== Sys2Proof/WellFormed.lean ====
section
/-! DEFINITION. Which commands have a word (spec/30_encoding.md R64, R65, R68). -/

namespace Sys2Proof

/-- A command is well formed when a legal word carries it. The prescaler constraint `p ≤ 5` of ICU_INIT
is carried by the type `Prescaler`; the one constraint left is `h ≠ 0` of ICU_REGISTER (R65). -/
def Instr.wf : Instr → Bool
  | .icuInit _ _ => true
  | .icuSetEdge _ => true
  | .icuGetCapture => true
  | .icuClearCounter => true
  | .icuRegister h => h != 0#4
  | .icuDeinit => true
  | .usInit => true
  | .usReadDistance => true

end Sys2Proof
end

