-- ==== Sys2Proof/Decode.lean ====
section
/-! DEFINITION. Command words (spec/30_encoding.md): the fields of the word, decoding, total on all 256
words and naming why a word is reserved, and the encoder. -/

namespace Sys2Proof

/-- Why a word is reserved, by the classes of R68. -/
inductive Reserved where
  /-- The opcode nibble is assigned to no command. -/
  | unassignedOpcode
  /-- ICU_INIT with prescaler code 6 or 7. -/
  | prescalerCode
  /-- A format N or E word with a nonzero unused bit. -/
  | unusedBits
  /-- ICU_REGISTER with h = 0. -/
  | noHandler
deriving DecidableEq, Repr

/-- The opcode field `cmd[7:4]` (R60). -/
def opcodeField (w : Byte) : BitVec 4 := w.extractLsb' 4 4

/-- The operand field `h = cmd[3:0]` (R62). -/
def hField (w : Byte) : HandlerId := w.extractLsb' 0 4

/-- The operand field `e = cmd[3]` (R62). -/
def eField (w : Byte) : BitVec 1 := w.extractLsb' 3 1

/-- The operand field `p = cmd[2:0]` (R62). -/
def pField (w : Byte) : BitVec 3 := w.extractLsb' 0 3

/-- The edge of a code: 0 Falling, 1 Rising (R63). -/
def edgeOfCode (e : BitVec 1) : Edge := if e = 1#1 then .rising else .falling

/-- The code of an edge (R63). -/
def edgeCode : Edge → BitVec 1
  | .falling => 0
  | .rising => 1

/-- The prescaler of a code; 6 and 7 select nothing (R64). -/
def prescalerOfCode (p : BitVec 3) : Option Prescaler :=
  match p.toNat with
  | 0 => some .off
  | 1 => some .div1
  | 2 => some .div8
  | 3 => some .div64
  | 4 => some .div256
  | 5 => some .div1024
  | _ => none

/-- The code of a prescaler (R64). -/
def prescalerCode : Prescaler → BitVec 3
  | .off => 0
  | .div1 => 1
  | .div8 => 2
  | .div64 => 3
  | .div256 => 4
  | .div1024 => 5

/-- Format N: all operand bits are zero (R61, R62). -/
def decodeN (w : Byte) (i : Instr) : Except Reserved Instr :=
  if hField w = 0#4 then .ok i else .error .unusedBits

/-- Format E: an edge, and the other operand bits zero (R61, R62). -/
def decodeE (w : Byte) (mk : Edge → Instr) : Except Reserved Instr :=
  if pField w = 0#3 then .ok (mk (edgeOfCode (eField w))) else .error .unusedBits

/-- Format EP: an edge and a prescaler code of at most 5 (R61, R64). -/
def decodeEP (w : Byte) (mk : Edge → Prescaler → Instr) : Except Reserved Instr :=
  match prescalerOfCode (pField w) with
  | some p => .ok (mk (edgeOfCode (eField w)) p)
  | none => .error .prescalerCode

/-- Format H: a handler identifier, not 0 (R61, R65). -/
def decodeH (w : Byte) (mk : HandlerId → Instr) : Except Reserved Instr :=
  if hField w = 0#4 then .error .noHandler else .ok (mk (hField w))

/-- The command of a word, or why it is reserved (R66, R67, R68). -/
def decode (w : Byte) : Except Reserved Instr :=
  match (opcodeField w).toNat with
  | 1 => decodeEP w .icuInit
  | 2 => decodeE w .icuSetEdge
  | 3 => decodeN w .icuGetCapture
  | 4 => decodeN w .icuClearCounter
  | 5 => decodeH w .icuRegister
  | 6 => decodeN w .icuDeinit
  | 8 => decodeN w .usInit
  | 9 => decodeN w .usReadDistance
  | _ => .error .unassignedOpcode

/-- The opcode nibble of a command (R66). -/
def opcodeOf : Instr → BitVec 4
  | .icuInit _ _ => 1
  | .icuSetEdge _ => 2
  | .icuGetCapture => 3
  | .icuClearCounter => 4
  | .icuRegister _ => 5
  | .icuDeinit => 6
  | .usInit => 8
  | .usReadDistance => 9

/-- The operand nibble of a command (R61, R71). -/
def operandOf : Instr → BitVec 4
  | .icuInit e p => edgeCode e ++ prescalerCode p
  | .icuSetEdge e => edgeCode e ++ 0#3
  | .icuGetCapture => 0
  | .icuClearCounter => 0
  | .icuRegister h => h
  | .icuDeinit => 0
  | .usInit => 0
  | .usReadDistance => 0

/-- The word of a command (R71). -/
def encode (i : Instr) : Byte := opcodeOf i ++ operandOf i

/-- The word whose low `nbits` bits are those of `w`: every command is exactly one word of 8 bits (R60). -/
def tableWord (nbits w : Nat) : Byte := BitVec.ofNat 8 (w % 2 ^ nbits)

/-- What the decoder reads from an instruction numbered as spec/opcode_table.json numbers its bits. -/
def decodeTableWord (nbits w : Nat) : Option Instr :=
  match decode (tableWord nbits w) with
  | .ok i => some i
  | .error _ => none

end Sys2Proof
end

