-- ==== Sys2Proof/Config.lean ====
section
/-! DEFINITION. What is fixed for a machine and what the spec leaves free: the parameters of
spec/00_scope.md R5 and the order of the agents' steps (R8). -/

namespace Sys2Proof

/-- The OPEN parameters of R5. They are not state and no step changes them (spec/10_state.md R10); a state
carries them as one constant field so that a claim over all states is a claim over all parameters.
DESIGN CHOICE, safe (log 4). -/
structure Params where
  /-- F_CPU_HZ, 32 bits (D27). The value 0 is outside the range and is refused as bad_config (R136). -/
  fCpuHz : BitVec 32
  /-- CFG_PRESC, the prescaler `US_INIT` configures. -/
  presc : Prescaler
  /-- CAL_OFFSET in centimetres, 16-bit two's complement (D26). -/
  calOffset : BitVec 16
  /-- TRIG_HOLD_MS. No rule reads it (R113). -/
  trigHoldMs : Nat
  /-- FOREIGN: entry k lists the command words of the body of handler k + 2; a missing entry is the
  default empty body (R84). -/
  foreign : List (List Byte)
deriving DecidableEq, Repr, Inhabited

/-- One turn: which agent steps next, and with what (R8, R72). -/
inductive Turn where
  /-- MAIN presents the word `w` on the command port (R60). -/
  | issue (w : Byte)
  /-- MAIN performs the micro-step SEQ names (R26). -/
  | main
  /-- IRQ: EV_DISPATCH (spec/40_callback_registry.md R82). -/
  | irq
  /-- CLK: EV_TICK (spec/41_capture_unit.md R100). -/
  | clk
  /-- ENV: EV_EDGE pol on the echo input (R102). -/
  | echo (pol : Edge)
  /-- ENV: EV_GIE b (R103). -/
  | gie (b : Bool)
deriving DecidableEq, Repr, Inhabited

/-- `soundSpeedConstant` (R5, spec/43_distance_conversion.md R131). -/
def Config.soundK : Nat := 17150

/-- H_ECHO, the identifier of the built-in handler `onEdge` (R5). -/
def Config.hEcho : HandlerId := 1#4

/-- CFG_EDGE, the initial edge `US_INIT` uses: Rising (R5). -/
def Config.cfgEdge : Edge := .rising

/-- The parameters of the machine that comes out of reset. Free: the spec gives no value (N2, N3, N8). -/
opaque Config.params : Params

/-- The turn taken when a state lists none: the n-th such turn. Free: any enabled step of any agent may be
the next one, in any order (R8, R146). DESIGN CHOICE, safe (log 1). -/
opaque Config.freeTurn : Nat → Turn

end Sys2Proof
end

