-- ==== Sys2Proof/Machine/State.lean ====
section
/-! DEFINITION. The state of the block as plain data (spec/10_state.md R10 to R35), the reasons a step
stops, and the state after reset (spec/70_reset_and_hazards.md R160). -/

namespace Sys2Proof.Machine

/-- The four phases of a session, in the order of their codes 0 to 3 (R19, spec/42_echo_ranging.md R110). -/
inductive Phase where
  | idle
  | wfr
  | wff
  | ready
deriving DecidableEq, Repr

/-- MAIN's position inside a composite command: `none`, or the next micro-step to perform (R26). -/
inductive Seq where
  | none
  | ui1
  | ui2
  | ui3
  | rd1
  | rd2
  | rd3
  | rd4
  | rd5
  | rd6
  | rd7
  | rd8
  | rd9
deriving DecidableEq, Repr

/-- The direction of the trigger pin (R24). -/
inductive PinDir where
  | input
  | output
deriving DecidableEq, Repr

/-- The three bytes of session memory, which have symbolic names only (spec/20_memory.md R40, R42): the one
byte of `PHASE`, and byte 0 and byte 1 of `PW`. -/
inductive SessionByte where
  | phase
  | pwLo
  | pwHi
deriving DecidableEq, Repr

/-- Faults: there are none. "The block raises no synchronous exception and has no cause codes"
(spec/60_exceptions.md R140), and no access outside the three named bytes can be formed (R44, R46). -/
inductive Fault where
deriving DecidableEq, Repr

/-- Why the model gives a run no step (R7, R141). Every one of them is safe: the model stops. -/
inductive Refusal where
  /-- Raised by `exec` for a command that has no meaning in the model. Safe. -/
  | notModelled (mnemonic : String)
  /-- `reserved_word`: raised when a word that decodes to no command is presented on the command port,
  and by ICU_REGISTER with h = 0, which only the reserved word 0x50 carries (R68). Safe. -/
  | reservedWord
  /-- `reentrant_read`: raised by US_READ_DISTANCE issued while SEQ ≠ NONE or PHASE ≠ IDLE (R112, R125). Safe. -/
  | reentrantRead
  /-- `bad_handler_body`: raised by a dispatch whose foreign body holds a word other than the four allowed
  commands (R84). Safe. -/
  | badHandlerBody
  /-- `bad_config`: raised by step RD9 when F_CPU_HZ = 0 (R136). Safe. -/
  | badConfig
  /-- Raised when a command other than US_READ_DISTANCE is presented while SEQ ≠ NONE, and by US_INIT
  executed then: a command is accepted only when SEQ = NONE (R26, R75, R111, R153; log 11). Safe. -/
  | notAccepted
deriving DecidableEq, Repr

/-- The state of the block. -/
@[ext]
structure State where
  /-- The parameters of R5, constant (log 4). -/
  cfg : Params
  /-- TCNT, the running counter (R11). -/
  tcnt : Word
  /-- ICR, the capture register (R12). -/
  icr : Word
  /-- PRESC, the prescaler select (R13). -/
  presc : Prescaler
  /-- EDGE, the armed polarity (R14). -/
  edge : Edge
  /-- ICIE, the capture interrupt enable (R15). -/
  icie : Bool
  /-- ICF, the capture pending flag (R16). -/
  icf : Bool
  /-- SLOT, the registered handler, 0 when there is none (R17). -/
  slot : HandlerId
  /-- The shared session memory, PHASE and PW (R19, R20, spec/20_memory.md R40). -/
  mem : List Host.Cell
  /-- RDTMP, the caller's local copy of PW (R23). -/
  rdtmp : Word
  /-- TRIGDIR, the direction of the trigger pin (R24). -/
  trigDir : PinDir
  /-- TRIG, the trigger output latch, true when high (R25). -/
  trig : Bool
  /-- SEQ, MAIN's position (R26). -/
  seq : Seq
  /-- GIE, the global interrupt enable input (R28). -/
  gie : Bool
  /-- ILOG, the invocation log, an observation (R30). -/
  ilog : List HandlerId
  /-- The responses delivered to MAIN so far, an observation (R31; log 14). -/
  resp : List Word
  /-- The model's own: the turns that are known to come, oldest first (log 1). -/
  turns : List Turn
  /-- The model's own: how many turns have been drawn from the free schedule (log 1). -/
  draws : Nat
deriving DecidableEq, Repr

/-- The state after reset (R160). The spec gives every value but four: RDTMP is unspecified (0 here,
DESIGN CHOICE, unsafe, log 5), GIE is the environment's choice (false here, DESIGN CHOICE, unsafe, log 6),
the parameters are open (uninterpreted, log 4), and the model's own fields list nothing (log 1). -/
def State.reset : State where
  cfg := Config.params
  tcnt := 0#16
  icr := 0#16
  presc := .off
  edge := .falling
  icie := false
  icf := false
  slot := 0#4
  mem := []
  rdtmp := 0#16
  trigDir := .input
  trig := false
  seq := .none
  gie := false
  ilog := []
  resp := []
  turns := []
  draws := 0

end Sys2Proof.Machine
end

