-- ==== Sys2Proof/Machine/Operands.lean ====
section
/-! DEFINITION. What the values of the operands and the fields stand for: divisors, phase codes, the places
of the session bytes, and handler bodies. -/

namespace Sys2Proof.Machine

/-- `div(p)`, the divisor of a prescaler setting; 0 for "no clock" (spec/41_capture_unit.md R91). -/
def divisor : Prescaler → Nat
  | .off => 0
  | .div1 => 1
  | .div8 => 8
  | .div64 => 64
  | .div256 => 256
  | .div1024 => 1024

/-- The phase code, held in bits 1:0 of the byte with zero in bits 7:2 (R19, spec/20_memory.md R40). -/
def Phase.code : Phase → Byte
  | .idle => 0#8
  | .wfr => 1#8
  | .wff => 2#8
  | .ready => 3#8

/-- Where the cells of `mem` keep each session byte: the model's own places. The spec gives none and no rule
depends on them (R46). DESIGN CHOICE, safe (log 7). -/
def SessionByte.addr : SessionByte → Nat
  | .phase => 0
  | .pwLo => 1
  | .pwHi => 2

/-- `FOREIGN(h)` for h in 2..15, the empty list where the parameter gives none (R5, R84). -/
def foreignBody (c : Params) (h : HandlerId) : List Byte := c.foreign.getD (h.toNat - 2) []

end Sys2Proof.Machine
end

