-- ==== Sys2Proof/Machine/Ops.lean ====
section
/-! DEFINITION. The named operations over session memory and registers, the effects the commands share, the
built-in handler, foreign handler bodies, and taking the capture interrupt. -/

namespace Sys2Proof.Machine

/-! ### Session memory (spec/20_memory.md) -/

/-- The byte at a cell; an unlisted cell reads as 0, the reset contents (R160; log 8). -/
def memByte : List Host.Cell → Nat → Byte
  | [], _ => 0#8
  | (a, v) :: m, k => if a = k then v else memByte m k

/-- Write one cell, keeping the canonical form: addresses strictly rising, no listed zero. -/
def memPut (k : Nat) (v : Byte) : List Host.Cell → List Host.Cell
  | [] => if v = 0#8 then [] else [(k, v)]
  | (a, u) :: m =>
    if k < a then (if v = 0#8 then (a, u) :: m else (k, v) :: (a, u) :: m)
    else if k = a then (if v = 0#8 then m else (k, v) :: m)
    else (a, u) :: memPut k v m

/-- The cells from address `lo` on are strictly rising, lie in the three bytes of R40, and list no zero. -/
def Memory.wfFrom : Nat → List Host.Cell → Bool
  | _, [] => true
  | lo, (a, v) :: m => decide (lo ≤ a) && decide (a < 3) && v != 0#8 && Memory.wfFrom (a + 1) m

/-- The canonical form of session memory. -/
def Memory.wf (m : List Host.Cell) : Bool := Memory.wfFrom 0 m

/-- Read one session byte. No read has a side effect (R45). -/
def State.byte (s : State) (b : SessionByte) : Byte := memByte s.mem b.addr

/-- Write one session byte. -/
def State.putByte (s : State) (b : SessionByte) (v : Byte) : State :=
  { s with mem := memPut b.addr v s.mem }

/-- `MemRead(PHASE, 1)` (R44). -/
def State.phase (s : State) : Byte := s.byte .phase

/-- `MemWrite(PHASE, 1, p)` (R44). -/
def State.setPhase (s : State) (p : Phase) : State := s.putByte .phase p.code

/-- `MemRead(PW, 2)`: byte 0 holds PW[7:0] and byte 1 holds PW[15:8] (R42, R44). -/
def State.pw (s : State) : Word := s.byte .pwHi ++ s.byte .pwLo

/-- `MemWrite(PW, 2, v)` (R42, R44). -/
def State.setPw (s : State) (v : Word) : State :=
  (s.putByte .pwLo (v.extractLsb' 0 8)).putByte .pwHi (v.extractLsb' 8 8)

/-! ### Capture unit and registry (spec/41_capture_unit.md, spec/40_callback_registry.md) -/

/-- The effect of `ICU_INIT` (R92). -/
def State.initUnit (s : State) (e : Edge) (p : Prescaler) : State :=
  { s with presc := p, edge := e, tcnt := 0#16, icr := 0#16, icf := false, icie := true }

/-- `EDGE <- e` (R93). -/
def State.setEdge (s : State) (e : Edge) : State := { s with edge := e }

/-- `TCNT <- 0` (R95). -/
def State.clearCounter (s : State) : State := { s with tcnt := 0#16 }

/-- `SLOT <- h` (R81). -/
def State.setSlot (s : State) (h : HandlerId) : State := { s with slot := h }

/-- The effect of `ICU_DEINIT` (R96). -/
def State.deinitUnit (s : State) : State := { s with icie := false, slot := 0#4 }

/-- `resp <- v`, delivered to MAIN (R31). -/
def State.respond (s : State) (v : Word) : State := { s with resp := s.resp ++ [v] }

/-- `TCNT <- (TCNT + 1) mod 2^16` (R100, R101). -/
def State.countUp (s : State) : State := { s with tcnt := s.tcnt + 1#16 }

/-- A recognized edge: `ICR <- TCNT`, `ICF <- 1` (R102). -/
def State.latch (s : State) : State := { s with icr := s.tcnt, icf := true }

/-- `GIE <- b` (R103). -/
def State.setGie (s : State) (b : Bool) : State := { s with gie := b }

/-! ### Ranging registers (spec/10_state.md R23 to R26) -/

/-- `SEQ <- q` (R26). -/
def State.goto (s : State) (q : Seq) : State := { s with seq := q }

/-- `TRIG <- b` (R25). -/
def State.setTrig (s : State) (b : Bool) : State := { s with trig := b }

/-- `TRIGDIR <- d` (R24). -/
def State.setTrigDir (s : State) (d : PinDir) : State := { s with trigDir := d }

/-- `RDTMP <- v` (R23). -/
def State.setRdtmp (s : State) (v : Word) : State := { s with rdtmp := v }

/-- What the block drives on the trigger pin: TRIG while TRIGDIR is output, nothing otherwise (R24, R25). -/
def State.trigPin (s : State) : Option Bool :=
  match s.trigDir with
  | .input => none
  | .output => some s.trig

/-! ### Handlers -/

/-- H_ECHO, the block's own `onEdge` (spec/42_echo_ranging.md R120). In the second branch PW is written
before PHASE (R48). -/
def State.onEdge (s : State) : State :=
  if s.phase = Phase.wfr.code then (s.clearCounter.setEdge .falling).setPhase .wff
  else if s.phase = Phase.wff.code then ((s.setPw s.icr).setEdge .rising).setPhase .ready
  else s

/-- One word of a foreign handler body: one of the four allowed commands, or `bad_handler_body` (R84). The
capture value a body reads goes to the handler and is not recorded. -/
def handlerWord (w : Byte) (s : State) : Host.Outcome State Fault Refusal :=
  match decode w with
  | .ok (.icuSetEdge e) => .next (s.setEdge e)
  | .ok .icuGetCapture => .next s
  | .ok .icuClearCounter => .next s.clearCounter
  | .ok (.icuRegister h) => .next (s.setSlot h)
  | .ok (.icuInit _ _) => .refused .badHandlerBody
  | .ok .icuDeinit => .refused .badHandlerBody
  | .ok .usInit => .refused .badHandlerBody
  | .ok .usReadDistance => .refused .badHandlerBody
  | .error _ => .refused .badHandlerBody

/-- A foreign handler body: its words in order (R84). -/
def runBody : List Byte → State → Host.Outcome State Fault Refusal
  | [], s => .next s
  | w :: ws, s =>
    match handlerWord w s with
    | .next t => runBody ws t
    | .fault r => .fault r
    | .refused r => .refused r

/-- The handler that `h` names: none, H_ECHO, or a foreign body (R17, R82). -/
def runHandler (h : HandlerId) (s : State) : Host.Outcome State Fault Refusal :=
  if h = 0#4 then .next s
  else if h = Config.hEcho then .next s.onEdge
  else runBody (foreignBody s.cfg h) s

/-- Entry of the capture interrupt: `ICF <- 0`, and ILOG gets SLOT appended if a handler is registered;
nothing is saved (R82, spec/60_exceptions.md R147). -/
def State.enterInterrupt (s : State) : State :=
  { s with icf := false, ilog := if s.slot = 0#4 then s.ilog else s.ilog ++ [s.slot] }

/-- Taking the capture interrupt, the whole handler body included, as one atomic step (R82, R83). The handler
is the one in SLOT at this moment (R86). Return has no effect of its own: nothing was saved and nothing is
restored (R149). -/
def takeInterrupt (s : State) : Host.Outcome State Fault Refusal := runHandler s.slot s.enterInterrupt

end Sys2Proof.Machine
end

