-- ==== Sys2Proof/Machine/Flags.lean ====
section
/-! DEFINITION. The block's flag computations: the dispatch condition, the clock and edge-recognition
conditions, and the ready flag (spec/10_state.md R32). -/

namespace Sys2Proof.Machine

/-- `EV_DISPATCH` is enabled exactly when ICF, ICIE and GIE are all 1 (spec/40_callback_registry.md R82). -/
def State.dispatchEnabled (s : State) : Bool := s.icf && s.icie && s.gie

/-- The unit is clocked: `div(PRESC) ≠ 0` (spec/41_capture_unit.md R100). -/
def State.clocked (s : State) : Bool := divisor s.presc != 0

/-- An edge of polarity `pol` is recognized (R102). -/
def State.recognizes (s : State) (pol : Edge) : Bool := s.clocked && decide (pol = s.edge)

/-- The ready flag: the predicate PHASE = READY (R32). -/
def State.ready (s : State) : Bool := decide (s.phase = Phase.ready.code)

/-- A composite command is in progress: SEQ ≠ NONE (R26). -/
def State.busy (s : State) : Bool := decide (s.seq ≠ .none)

end Sys2Proof.Machine
end

