-- ==== Sys2Proof/Machine/CaptureUnit.lean ====
section
/-! DEFINITION. The capture unit's five commands and three events (spec/41_capture_unit.md). -/

namespace Sys2Proof.Machine

/-- `ICU_INIT edge, presc` (R92). -/
def execIcuInit (e : Edge) (p : Prescaler) (s : State) : Host.Outcome State Fault Refusal :=
  .next (s.initUnit e p)

/-- `ICU_SET_EDGE edge` (R93). -/
def execIcuSetEdge (e : Edge) (s : State) : Host.Outcome State Fault Refusal := .next (s.setEdge e)

/-- `ICU_GET_CAPTURE`: responds with ICR as it stands, without side effect (R94, R45). -/
def execIcuGetCapture (s : State) : Host.Outcome State Fault Refusal := .next (s.respond s.icr)

/-- `ICU_CLEAR_COUNTER` (R95). -/
def execIcuClearCounter (s : State) : Host.Outcome State Fault Refusal := .next s.clearCounter

/-- `ICU_DEINIT` (R96). -/
def execIcuDeinit (s : State) : Host.Outcome State Fault Refusal := .next s.deinitUnit

/-- `EV_TICK`: enabled only while the unit is clocked (R100). -/
def evTick (s : State) : State := if s.clocked then s.countUp else s

/-- `EV_EDGE pol`: a recognized edge latches and sets the pending flag, any other changes nothing (R102). -/
def evEdge (pol : Edge) (s : State) : State := if s.recognizes pol then s.latch else s

/-- `EV_GIE b` (R103). -/
def evGie (b : Bool) (s : State) : State := s.setGie b

end Sys2Proof.Machine
end

