-- ==== Sys2Proof/Machine/Distance.lean ====
section
/-! DEFINITION. The distance converter, a pure function on unbounded integers, cut where the rules say
(spec/43_distance_conversion.md R130 to R138). -/

namespace Sys2Proof.Machine

/-- The largest result, 2^16 − 1 (R132, R134). -/
def maxDistance : Nat := 65535

/-- `raw_exact = floor((T * 17150 * P) / F)`: exact product, one truncation (R131). -/
def rawExact (t p f : Nat) : Nat := t * Config.soundK * p / f

/-- `raw = min(raw_exact, 65535)` (R132). -/
def rawDistance (t p f : Nat) : Nat := min (rawExact t p f) maxDistance

/-- The calibration offset with clamp: subtracted only if `raw > K`, compared as integers (R133). -/
def adjustDistance (raw : Nat) (k : Int) : Nat := if (raw : Int) > k then ((raw : Int) - k).toNat else raw

/-- `Convert(T, P, F, K)` (R134). F = 0 is refused before this is called (R136). -/
def convert (t : Word) (p : Nat) (f : BitVec 32) (k : BitVec 16) : Word :=
  BitVec.ofNat 16 (min (adjustDistance (rawDistance t.toNat p f.toNat) k.toInt) maxDistance)

end Sys2Proof.Machine
end

