-- ==== Sys2Proof/Machine/EchoRanging.lean ====
section
/-! DEFINITION. The echo-ranging state machine: the issue steps of the two composite commands and their
micro-steps (spec/42_echo_ranging.md). The handler H_ECHO is `State.onEdge` in Machine/Ops.lean. -/

namespace Sys2Proof.Machine

/-- `US_INIT`, issue step: requires SEQ = NONE; the micro-steps UI1 to UI3 follow (R111). -/
def execUsInit (s : State) : Host.Outcome State Fault Refusal :=
  if s.busy then .refused .notAccepted else .next (s.goto .ui1)

/-- `US_READ_DISTANCE`, issue step: requires SEQ = NONE and PHASE = IDLE, else `reentrant_read`; the
micro-steps RD1 to RD9 follow (R112, R125). -/
def execUsReadDistance (s : State) : Host.Outcome State Fault Refusal :=
  if s.busy then .refused .reentrantRead
  else if s.phase = Phase.idle.code then .next (s.goto .rd1)
  else .refused .reentrantRead

/-- Step UI1: perform ICU_INIT CFG_EDGE, CFG_PRESC (R111). -/
def stepUI1 (s : State) : State := (s.initUnit Config.cfgEdge s.cfg.presc).goto .ui2

/-- Step UI2: SLOT <- H_ECHO (R111). -/
def stepUI2 (s : State) : State := (s.setSlot Config.hEcho).goto .ui3

/-- Step UI3: the trigger pin becomes an output (R111). -/
def stepUI3 (s : State) : State := (s.setTrigDir .output).goto .none

/-- Step RD1: trigger high (R113). -/
def stepRD1 (s : State) : State := (s.setTrig true).goto .rd2

/-- Step RD2: the busy-wait of TRIG_HOLD_MS, no state change (R113). -/
def stepRD2 (s : State) : State := s.goto .rd3

/-- Step RD3: trigger low (R113). -/
def stepRD3 (s : State) : State := (s.setTrig false).goto .rd4

/-- Step RD4: open the session; PW is not cleared (R114). -/
def stepRD4 (s : State) : State := (s.setPhase .wfr).goto .rd5

/-- Step RD5: arm Rising; ICF is not cleared (R115). -/
def stepRD5 (s : State) : State := (s.setEdge .rising).goto .rd6

/-- Step RD6: the wait. While PHASE ≠ READY a poll changes nothing and MAIN stays here (R116, R124). -/
def stepRD6 (s : State) : State := if s.ready then s.goto .rd7 else s

/-- Step RD7: read the accumulator (R117). -/
def stepRD7 (s : State) : State := (s.setRdtmp s.pw).goto .rd8

/-- Step RD8: close the session (R118). -/
def stepRD8 (s : State) : State := (s.setPhase .idle).goto .rd9

/-- Step RD9: convert and respond, with the divisor of PRESC as it stands (R119); F_CPU_HZ = 0 is refused
(R136). -/
def stepRD9 (s : State) : Host.Outcome State Fault Refusal :=
  if s.cfg.fCpuHz = 0#32 then .refused .badConfig
  else .next ((s.respond (convert s.rdtmp (divisor s.presc) s.cfg.fCpuHz s.cfg.calOffset)).goto .none)

/-- The micro-step SEQ names; with SEQ = NONE MAIN has none and nothing changes (R26). -/
def microStep (s : State) : Host.Outcome State Fault Refusal :=
  match s.seq with
  | .none => .next s
  | .ui1 => .next (stepUI1 s)
  | .ui2 => .next (stepUI2 s)
  | .ui3 => .next (stepUI3 s)
  | .rd1 => .next (stepRD1 s)
  | .rd2 => .next (stepRD2 s)
  | .rd3 => .next (stepRD3 s)
  | .rd4 => .next (stepRD4 s)
  | .rd5 => .next (stepRD5 s)
  | .rd6 => .next (stepRD6 s)
  | .rd7 => .next (stepRD7 s)
  | .rd8 => .next (stepRD8 s)
  | .rd9 => stepRD9 s

end Sys2Proof.Machine
end

