-- ==== Sys2Proof/Machine/Registry.lean ====
section
/-! DEFINITION. The callback registry's command and event (spec/40_callback_registry.md). -/

namespace Sys2Proof.Machine

/-- `ICU_REGISTER h` (R81). `h = 0` is carried by the reserved word 0x50 only and has no meaning (R65, R68). -/
def execIcuRegister (h : HandlerId) (s : State) : Host.Outcome State Fault Refusal :=
  if h = 0#4 then .refused .reservedWord else .next (s.setSlot h)

/-- `EV_DISPATCH`: the capture interrupt is taken if it is enabled; otherwise IRQ has no step (R82). -/
def evDispatch (s : State) : Host.Outcome State Fault Refusal :=
  if s.dispatchEnabled then takeInterrupt s else .next s

end Sys2Proof.Machine
end

