-- ==== Sys2Proof/Machine/Dispatch.lean ====
section
/-! DEFINITION. The meaning of each command, one arm per constructor of Instr. -/

namespace Sys2Proof.Machine

def exec (i : Instr) (s : State) : Host.Outcome State Fault Refusal :=
  match i with
  | .icuInit e p => Sys2Proof.Machine.execIcuInit e p s
  | .icuSetEdge e => Sys2Proof.Machine.execIcuSetEdge e s
  | .icuGetCapture => Sys2Proof.Machine.execIcuGetCapture s
  | .icuClearCounter => Sys2Proof.Machine.execIcuClearCounter s
  | .icuRegister h => Sys2Proof.Machine.execIcuRegister h s
  | .icuDeinit => Sys2Proof.Machine.execIcuDeinit s
  | .usInit => Sys2Proof.Machine.execUsInit s
  | .usReadDistance => Sys2Proof.Machine.execUsReadDistance s

end Sys2Proof.Machine
end

