-- ==== Sys2Proof/Machine/Agents.lean ====
section
/-! DEFINITION. The agents' turns (spec/00_scope.md R8): which turn comes next, what each does, and when an
agent has a step. -/

namespace Sys2Proof.Machine

/-- The turn that comes next: the oldest listed one, or a free one when none is listed (R8, R146; log 1). -/
def State.nextTurn (s : State) : Turn :=
  match s.turns with
  | t :: _ => t
  | [] => Config.freeTurn s.draws

/-- The schedule replaced. -/
def State.setTurns (s : State) (ts : List Turn) : State := { s with turns := ts }

/-- The state once that turn has been taken off the schedule. -/
def State.dropTurn (s : State) : State :=
  match s.turns with
  | _ :: ts => s.setTurns ts
  | [] => { s with draws := s.draws + 1 }

/-- Why a command presented while SEQ ≠ NONE is not accepted: `reentrant_read` for US_READ_DISTANCE
(spec/30_encoding.md R75), `notAccepted` for every other (R75, spec/60_exceptions.md R153; log 11). -/
def busyRefusal : Instr → Refusal
  | .icuInit _ _ => .notAccepted
  | .icuSetEdge _ => .notAccepted
  | .icuGetCapture => .notAccepted
  | .icuClearCounter => .notAccepted
  | .icuRegister _ => .notAccepted
  | .icuDeinit => .notAccepted
  | .usInit => .notAccepted
  | .usReadDistance => .reentrantRead

/-- MAIN presents a word on the command port: a reserved word is refused (R68), a command is accepted only
when SEQ = NONE (R26, R75), and an accepted command is carried out. -/
def issueWord (w : Byte) (s : State) : Host.Outcome State Fault Refusal :=
  match decode w with
  | .error _ => .refused .reservedWord
  | .ok i => if s.busy then .refused (busyRefusal i) else exec i s

/-- One turn of one agent. A turn of an agent that has no enabled step changes nothing (log 2). -/
def runTurn (t : Turn) (s : State) : Host.Outcome State Fault Refusal :=
  match t with
  | .issue w => issueWord w s
  | .main => microStep s
  | .irq => evDispatch s
  | .clk => .next (evTick s)
  | .echo pol => .next (evEdge pol s)
  | .gie b => .next (evGie b s)

/-- The agent of the turn has an enabled step (R82, R100, R102, R103, R26, R116). -/
def turnEnabled (t : Turn) (s : State) : Bool :=
  match t with
  | .issue _ => !s.busy
  | .main => s.busy && (decide (s.seq ≠ .rd6) || s.ready)
  | .irq => s.dispatchEnabled
  | .clk => s.clocked
  | .echo _ => true
  | .gie _ => true

/-- The word `w` presented next on the command port, MAIN free to issue it (log 3). -/
def State.present (s : State) (w : Byte) : State :=
  { s with seq := .none, turns := .issue w :: s.turns }

end Sys2Proof.Machine
end

