-- ==== Sys2Proof/Machine/Step.lean ====
section
/-! DEFINITION. One step of the machine: the next turn is taken off the schedule and its agent steps. -/

namespace Sys2Proof.Machine

/-- One atomic step of one agent (spec/00_scope.md R8, spec/20_memory.md R47). -/
def step (s : State) : Host.Outcome State Fault Refusal := runTurn s.nextTurn s.dropTurn

/-- `s` with the table's word presented next on the command port. -/
def State.withFetchWord (s : State) (nbits w : Nat) : State := s.present (tableWord nbits w)

end Sys2Proof.Machine
end

