-- ==== Sys2Proof/Safety.lean ====
section
/-! DEFINITION. The terms claims use: what an operation leaves unchanged, runs, the invariants of a session,
and when a machine's parameters are legal. -/

namespace Sys2Proof.Machine

/-- One piece of the state, session memory byte by byte. -/
inductive Piece where
  | cfg
  | tcnt
  | icr
  | presc
  | edge
  | icie
  | icf
  | slot
  | byte (b : SessionByte)
  | rdtmp
  | trigDir
  | trig
  | seq
  | gie
  | ilog
  | resp
  | turns
  | draws
deriving DecidableEq, Repr

/-- `s` and `t` hold the same value in the piece. -/
def Piece.same (s t : State) : Piece → Prop
  | .cfg => t.cfg = s.cfg
  | .tcnt => t.tcnt = s.tcnt
  | .icr => t.icr = s.icr
  | .presc => t.presc = s.presc
  | .edge => t.edge = s.edge
  | .icie => t.icie = s.icie
  | .icf => t.icf = s.icf
  | .slot => t.slot = s.slot
  | .byte b => t.byte b = s.byte b
  | .rdtmp => t.rdtmp = s.rdtmp
  | .trigDir => t.trigDir = s.trigDir
  | .trig => t.trig = s.trig
  | .seq => t.seq = s.seq
  | .gie => t.gie = s.gie
  | .ilog => t.ilog = s.ilog
  | .resp => t.resp = s.resp
  | .turns => t.turns = s.turns
  | .draws => t.draws = s.draws

/-- The frame: everything outside `fs` is unchanged from `s` to `t`. -/
def ChangesOnly (fs : List Piece) (s t : State) : Prop := ∀ f, f ∉ fs → f.same s t

/-- An outcome with `f` applied to its next state. -/
def mapNext (f : State → State) (o : Host.Outcome State Fault Refusal) : Host.Outcome State Fault Refusal :=
  match o with
  | .next t => .next (f t)
  | .fault r => .fault r
  | .refused r => .refused r

/-- `n` steps, stopping at the first refusal. -/
def runFor : Nat → State → Host.Outcome State Fault Refusal
  | 0, s => .next s
  | n + 1, s =>
    match step s with
    | .next t => runFor n t
    | .fault r => .fault r
    | .refused r => .refused r

/-- A run from `s` to `t` that steps only from states satisfying `P`. -/
inductive ReachesVia (P : State → Prop) : State → State → Prop where
  | refl (s : State) : ReachesVia P s s
  | tail {s t u : State} : ReachesVia P s t → P t → step t = .next u → ReachesVia P s u

/-- The phases MAIN's position allows: IDLE outside a session, a waiting phase or READY from RD5 to RD6, and
READY once the wait is over, until RD8 (spec/42_echo_ranging.md R126 and its derivation). -/
def phaseFits : Seq → Byte → Prop
  | .none, b => b = Phase.idle.code
  | .ui1, b => b = Phase.idle.code
  | .ui2, b => b = Phase.idle.code
  | .ui3, b => b = Phase.idle.code
  | .rd1, b => b = Phase.idle.code
  | .rd2, b => b = Phase.idle.code
  | .rd3, b => b = Phase.idle.code
  | .rd4, b => b = Phase.idle.code
  | .rd5, b => b = Phase.wfr.code ∨ b = Phase.wff.code ∨ b = Phase.ready.code
  | .rd6, b => b = Phase.wfr.code ∨ b = Phase.wff.code ∨ b = Phase.ready.code
  | .rd7, b => b = Phase.ready.code
  | .rd8, b => b = Phase.ready.code
  | .rd9, b => b = Phase.idle.code

/-- The invariant of a session: session memory is in its canonical form, and PHASE is one of the four codes,
the one MAIN's position allows. -/
def SessionInv (s : State) : Prop := Memory.wf s.mem = true ∧ phaseFits s.seq s.phase

/-- A pending edge implies a running clock: only a clocked unit sets ICF, and the one writer of PRESC clears
it (spec/41_capture_unit.md R92, R102). -/
def PendingIsClocked (s : State) : Prop := s.icf = true → s.clocked = true

/-- The trigger output is high exactly between steps RD1 and RD3 (spec/42_echo_ranging.md R113). -/
def TriggerFits (s : State) : Prop := s.trig = true ↔ s.seq = .rd2 ∨ s.seq = .rd3

/-- The armed polarity is the one the session's phase waits for: Falling in WFF, Rising in every other phase
(spec/42_echo_ranging.md R121). -/
def ArmedFits (s : State) : Prop :=
  (s.phase = Phase.wff.code → s.edge = .falling) ∧ (s.phase ≠ Phase.wff.code → s.edge = .rising)

/-- A word a foreign handler body may contain (spec/40_callback_registry.md R84). -/
def allowedInBody (w : Byte) : Bool :=
  match decode w with
  | .ok (.icuSetEdge _) => true
  | .ok .icuGetCapture => true
  | .ok .icuClearCounter => true
  | .ok (.icuRegister _) => true
  | .ok (.icuInit _ _) => false
  | .ok .icuDeinit => false
  | .ok .usInit => false
  | .ok .usReadDistance => false
  | .error _ => false

/-- The parameters are in range: F_CPU_HZ ≥ 1 (R136) and every handler body is allowed (R84). -/
def Params.legal (c : Params) : Bool := c.fCpuHz != 0#32 && c.foreign.all fun ws => ws.all allowedInBody

/-- A turn of a session, beside those `sessionTurns` names, while a recognized edge may be waiting for its
dispatch and `armed` is the armed polarity: a tick, a MAIN turn, a change of GIE, or an edge of the other
polarity. -/
def latencyTurn (armed : Edge) : Turn → Bool
  | .issue _ => false
  | .main => true
  | .irq => false
  | .clk => true
  | .echo pol => decide (pol ≠ armed)
  | .gie _ => true

/-- A turn of a session, beside those `sessionTurns` names, while no edge is pending and `armed` is the armed
polarity: the same, and a turn of IRQ, which has no step then. -/
def quietTurn (armed : Edge) : Turn → Bool
  | .issue _ => false
  | .main => true
  | .irq => true
  | .clk => true
  | .echo pol => decide (pol ≠ armed)
  | .gie _ => true

/-- GIE after one turn (spec/41_capture_unit.md R103). -/
def gieStep (g : Bool) : Turn → Bool
  | .issue _ => g
  | .main => g
  | .irq => g
  | .clk => g
  | .echo _ => g
  | .gie b => b

/-- GIE after the turns, `g` being its value before them. -/
def gieAfter (g : Bool) (ts : List Turn) : Bool := ts.foldl gieStep g

/-- The turns of one whole session: the call; `opening`, in which fall steps RD1 to RD4; RD5; the wait for the
echo; the rising edge and its dispatch; the pulse; the falling edge and its dispatch; and `closing`, in which fall
steps RD6 to RD9. -/
def sessionTurns (opening before riseLatency pulse fallLatency closing : List Turn) : List Turn :=
  .issue 0x90 :: opening ++ .main :: before ++ .echo .rising :: riseLatency ++ .irq :: pulse ++
    .echo .falling :: fallLatency ++ .irq :: closing

end Sys2Proof.Machine
end

