-- ==== Sys2Proof/Certificates/Slice0/Obligations.lean ====
section
/-! DEFINITION. The statements for the provers, each taken from numbered rules of spec/. -/

open Sys2Proof Sys2Proof.Machine

/-! ### Reset, encoding -/

/-- Reset leaves the values of R160 and an inert block: no tick, no recognized edge, no dispatch, the trigger
pin not driven. All but PHASE and SLOT are the spec's own choice ("the spec's choice ... D29"). -/
def Obligations.ResetLeavesTheSpecsValues : Prop :=
  State.reset.tcnt = 0 ∧ State.reset.icr = 0 ∧ State.reset.presc = .off ∧ State.reset.edge = .falling ∧
  State.reset.icie = false ∧ State.reset.icf = false ∧ State.reset.slot = 0 ∧
  State.reset.phase = Phase.idle.code ∧ State.reset.pw = 0 ∧ State.reset.trigDir = .input ∧
  State.reset.trig = false ∧ State.reset.seq = .none ∧ State.reset.ilog = [] ∧ State.reset.resp = [] ∧
  turnEnabled .clk State.reset = false ∧ (∀ pol, evEdge pol State.reset = State.reset) ∧
  turnEnabled .irq State.reset = false ∧ State.reset.trigPin = none

/-- The state after reset meets the three invariants. -/
def Obligations.ResetMeetsTheInvariants : Prop :=
  SessionInv State.reset ∧ PendingIsClocked State.reset ∧ TriggerFits State.reset

/-- Decoding the word of a well-formed command gives the command back, every operand at every value (R66, R67). -/
def Obligations.DecodeOfEncodeIsTheCommand : Prop :=
  ∀ i : Instr, i.wf = true → decode (encode i) = .ok i

/-- A word that decodes is the word of the command it decodes to, and that command is well formed: no two
words mean the same, and no bit of a legal word is ignored (R62, R66, R67). -/
def Obligations.DecodedWordIsItsEncoding : Prop :=
  ∀ (w : Byte) (i : Instr), decode w = .ok i → i.wf = true ∧ encode i = w

/-- A word is reserved exactly when it is the word of no well-formed command, and a reserved word presented
on the command port is refused as `reserved_word`, in every state (R68). -/
def Obligations.ReservedWordsAreRefused : Prop :=
  ∀ (w : Byte), ((∃ r, decode w = .error r) ↔ ∀ i : Instr, i.wf = true → encode i ≠ w) ∧
    ∀ (s : State) (ts : List Turn), s.turns = .issue w :: ts → (∃ r, decode w = .error r) →
      step s = .refused .reservedWord

/-- Words written out from the encoding tables decode to the commands they stand for (R66, R71). -/
def Obligations.WrittenOutWordsDecode : Prop :=
  decode 0b00011010 = .ok (.icuInit .rising .div8) ∧ decode 0b00010101 = .ok (.icuInit .falling .div1024) ∧
  decode 0b00100000 = .ok (.icuSetEdge .falling) ∧ decode 0b00101000 = .ok (.icuSetEdge .rising) ∧
  decode 0b00110000 = .ok .icuGetCapture ∧ decode 0b01000000 = .ok .icuClearCounter ∧
  decode 0b01010001 = .ok (.icuRegister 1) ∧ decode 0b01011111 = .ok (.icuRegister 15) ∧
  decode 0b01100000 = .ok .icuDeinit ∧ decode 0b10000000 = .ok .usInit ∧
  decode 0b10010000 = .ok .usReadDistance

/-! ### The step -/

/-- A command presented while MAIN is free is carried out: when the listed next turn presents a word that
decodes to `i` and SEQ = NONE, the step is `exec i` of the state with that turn taken off. The schedule is the
model's choice (log 1). -/
def Obligations.StepRunsThePresentedCommand : Prop :=
  ∀ (s : State) (w : Byte) (i : Instr) (ts : List Turn),
    s.turns = .issue w :: ts → s.seq = .none → decode w = .ok i → step s = exec i (s.setTurns ts)

/-- Presenting a table word makes the very next step carry it out, from every state (log 3). -/
def Obligations.PresentedTableWordRunsNext : Prop :=
  ∀ (s : State) (w : Nat) (i : Instr), decodeTableWord 8 w = some i →
    step (s.withFetchWord 8 w) = exec i (s.goto .none)

/-- Every order of the agents' steps is admitted: a step runs whichever turn stands first, and a turn that is
not listed is a free one (R8, R146; log 1). -/
def Obligations.StepTakesTheNextTurn : Prop :=
  (∀ (s : State) (t : Turn) (ts : List Turn), s.turns = t :: ts → step s = runTurn t (s.setTurns ts)) ∧
  (∀ s : State, s.turns = [] → step s = runTurn (Config.freeTurn s.draws) { s with draws := s.draws + 1 })

/-- A tick, dispatch or MAIN turn of an agent that has no enabled step changes nothing (R82, R100, R116, R26;
log 2). -/
def Obligations.DisabledAgentsChangeNothing : Prop :=
  ∀ (t : Turn) (s : State), turnEnabled t s = false → (∀ w, t ≠ .issue w) → runTurn t s = .next s

/-- MAIN can issue only while SEQ = NONE: a legal word presented while a composite command is in progress is
refused, `reentrant_read` for US_READ_DISTANCE and `notAccepted` for every other (R75; log 11). -/
def Obligations.BusyBlockAcceptsNoCommand : Prop :=
  ∀ (s : State) (w : Byte) (i : Instr) (ts : List Turn),
    s.turns = .issue w :: ts → s.seq ≠ .none → decode w = .ok i →
      (i = .usReadDistance → step s = .refused .reentrantRead) ∧
      (i ≠ .usReadDistance → step s = .refused .notAccepted)

/-- Every legal word presented while MAIN is free completes with a next state: `reentrant_read` cannot arise
through the command port, because the session invariant makes PHASE = IDLE then (R112, R126). -/
def Obligations.AcceptedCommandsComplete : Prop :=
  ∀ (s : State) (w : Byte) (i : Instr) (ts : List Turn),
    SessionInv s → s.turns = .issue w :: ts → s.seq = .none → decode w = .ok i → ∃ u, step s = .next u

/-- A step is refused only for the reasons the spec names, and for a command presented out of its context (R68,
R75, R84, R125, R136, R141). The reasons are the spec's; the places where three of them are raised are the
model's: `notAccepted` for a presented command is log 11, `bad_config` at RD9 alone is log 13 (R136 does not say
when), and `bad_handler_body` at the dispatch that runs the body is log 21. -/
def Obligations.RefusalsAreTheSpecsOwn : Prop :=
  ∀ (s : State) (r : Refusal), step s = .refused r →
    (r = .reservedWord ∧ ∃ w c, s.nextTurn = .issue w ∧ decode w = .error c) ∨
    (r = .reentrantRead ∧ ∃ w, s.nextTurn = .issue w ∧ decode w = .ok .usReadDistance ∧
      (s.seq ≠ .none ∨ s.phase ≠ Phase.idle.code)) ∨
    (r = .notAccepted ∧ ∃ w i, s.nextTurn = .issue w ∧ decode w = .ok i ∧ i ≠ .usReadDistance ∧ s.seq ≠ .none) ∨
    (r = .badHandlerBody ∧ s.nextTurn = .irq ∧ s.dispatchEnabled = true ∧ s.slot ≠ 0 ∧ s.slot ≠ Config.hEcho ∧
      ∃ w ∈ foreignBody s.cfg s.slot, allowedInBody w = false) ∨
    (r = .badConfig ∧ s.nextTurn = .main ∧ s.seq = .rd9 ∧ s.cfg.fCpuHz = 0)

/-! ### Invariants of every step -/

/-- Every step keeps the session invariant: session memory stays canonical and PHASE stays one of the four
codes, the one MAIN's position allows (R40, R126). -/
def Obligations.StepKeepsSessionInvariant : Prop :=
  ∀ s u : State, SessionInv s → step s = .next u → SessionInv u

/-- Every step keeps: a pending edge implies a running clock (R92, R102). -/
def Obligations.StepKeepsPendingClocked : Prop :=
  ∀ s u : State, PendingIsClocked s → step s = .next u → PendingIsClocked u

/-- Every step keeps: the trigger output is high exactly between steps RD1 and RD3 (R113). -/
def Obligations.StepKeepsTriggerHold : Prop :=
  ∀ s u : State, TriggerFits s → step s = .next u → TriggerFits u

/-- No step changes the parameters (R10; log 4). -/
def Obligations.StepKeepsTheParameters : Prop := ∀ s u : State, step s = .next u → u.cfg = s.cfg

/-- PHASE moves only along IDLE, WFR, WFF, READY, IDLE, each move by the one step the rules name (R22). -/
def Obligations.PhaseMovesOnlyAlongTheCycle : Prop :=
  ∀ s u : State, SessionInv s → step s = .next u →
    u.phase = s.phase ∨
    (s.nextTurn = .main ∧ s.seq = .rd4 ∧ s.phase = Phase.idle.code ∧ u.phase = Phase.wfr.code) ∨
    (s.nextTurn = .irq ∧ s.dispatchEnabled = true ∧ s.slot = Config.hEcho ∧ s.phase = Phase.wfr.code ∧
      u.phase = Phase.wff.code) ∨
    (s.nextTurn = .irq ∧ s.dispatchEnabled = true ∧ s.slot = Config.hEcho ∧ s.phase = Phase.wff.code ∧
      u.phase = Phase.ready.code) ∨
    (s.nextTurn = .main ∧ s.seq = .rd8 ∧ s.phase = Phase.ready.code ∧ u.phase = Phase.idle.code)

/-- PW is written only by the falling-edge branch of H_ECHO, from ICR; in particular no step writes it while
PHASE = READY, so the read of step RD7 cannot be torn (R20, R55). -/
def Obligations.OnlyTheFallingBranchWritesPw : Prop :=
  ∀ s u : State, Memory.wf s.mem = true → step s = .next u →
    (u.byte .pwLo = s.byte .pwLo ∧ u.byte .pwHi = s.byte .pwHi) ∨
    (s.nextTurn = .irq ∧ s.dispatchEnabled = true ∧ s.slot = Config.hEcho ∧ s.phase = Phase.wff.code ∧
      u.pw = s.icr ∧ u.phase = Phase.ready.code)

/-- ICF is set only by a recognized edge, and cleared only by a dispatch or by ICU_INIT, issued or as step
UI1 (R16, R144; the clearing is the spec's decision D12). -/
def Obligations.PendingFlagHasTheListedWriters : Prop :=
  ∀ s u : State, step s = .next u →
    (s.icf = false → u.icf = true → ∃ pol, s.nextTurn = .echo pol ∧ s.recognizes pol = true ∧ u.icr = s.tcnt) ∧
    (s.icf = true → u.icf = false →
      (s.nextTurn = .irq ∧ s.dispatchEnabled = true) ∨ (s.nextTurn = .main ∧ s.seq = .ui1) ∨
      ∃ w e p, s.nextTurn = .issue w ∧ decode w = .ok (.icuInit e p))

/-- The control registers are written only by the steps their rules list: PRESC by ICU_INIT; ICIE set by
ICU_INIT and cleared by ICU_DEINIT; TRIGDIR set to output by UI3 and never cleared; GIE by the environment
(R13, R15, R24, R28). -/
def Obligations.ControlRegistersHaveTheListedWriters : Prop :=
  ∀ s u : State, step s = .next u →
    (u.presc ≠ s.presc → (s.nextTurn = .main ∧ s.seq = .ui1 ∧ u.presc = s.cfg.presc) ∨
      ∃ w e p, s.nextTurn = .issue w ∧ decode w = .ok (.icuInit e p) ∧ u.presc = p) ∧
    (s.icie = false → u.icie = true → (s.nextTurn = .main ∧ s.seq = .ui1) ∨
      ∃ w e p, s.nextTurn = .issue w ∧ decode w = .ok (.icuInit e p)) ∧
    (s.icie = true → u.icie = false → ∃ w, s.nextTurn = .issue w ∧ decode w = .ok .icuDeinit) ∧
    (u.trigDir ≠ s.trigDir → s.nextTurn = .main ∧ s.seq = .ui3 ∧ u.trigDir = .output) ∧
    (u.gie ≠ s.gie → s.nextTurn = .gie u.gie)

/-! ### The capture unit and the registry -/

/-- ICU_INIT completes in every state: PRESC and EDGE from its operands, counter and latch zero, the interrupt
enabled, nothing else changed; with prescaler OFF the unit is left inert (R92; that ICF is cleared is the
spec's decision D12, the inertness D6; that a turn of a disabled CLK passes is the model's, log 2). -/
def Obligations.IcuInitArmsTheUnit : Prop :=
  ∀ (e : Edge) (p : Prescaler) (s : State), ∃ t, exec (.icuInit e p) s = .next t ∧
    t.presc = p ∧ t.edge = e ∧ t.tcnt = 0 ∧ t.icr = 0 ∧ t.icf = false ∧ t.icie = true ∧
    ChangesOnly [.presc, .edge, .tcnt, .icr, .icf, .icie] s t ∧
    (p = .off → evTick t = t ∧ ∀ pol, evEdge pol t = t)

/-- ICU_SET_EDGE completes in every state and writes EDGE alone; an edge already pending stays pending (R93;
decision D13). -/
def Obligations.IcuSetEdgeWritesThePolarity : Prop :=
  ∀ (e : Edge) (s : State), ∃ t, exec (.icuSetEdge e) s = .next t ∧ t.edge = e ∧ ChangesOnly [.edge] s t ∧
    (s.edge = e → t = s)

/-- ICU_GET_CAPTURE completes in every state, responds with ICR as it stands and has no side effect; a second
one responds the same (R45, R94; decision D41). -/
def Obligations.IcuGetCaptureRespondsTheLatch : Prop :=
  ∀ s : State, ∃ t u, exec .icuGetCapture s = .next t ∧ t.resp = s.resp ++ [s.icr] ∧ ChangesOnly [.resp] s t ∧
    exec .icuGetCapture t = .next u ∧ u.resp = s.resp ++ [s.icr, s.icr]

/-- ICU_CLEAR_COUNTER completes in every state and zeroes TCNT alone; the counter goes on from 0 if it is
clocked (R95; decision D13; that a turn of a disabled CLK passes is the model's, log 2). -/
def Obligations.IcuClearCounterZeroesTheCounter : Prop :=
  ∀ s : State, ∃ t, exec .icuClearCounter s = .next t ∧ t.tcnt = 0 ∧ ChangesOnly [.tcnt] s t ∧
    (s.presc ≠ .off → (evTick t).tcnt = 1) ∧ (s.presc = .off → (evTick t).tcnt = 0)

/-- ICU_REGISTER completes in every state for every identifier but 0: SLOT alone is written, a pending ICF
stays pending and its dispatch goes to the new handler, and inside a handler body the word does the same; the
identifier 0 is refused (R81). -/
def Obligations.IcuRegisterReplacesTheHandler : Prop :=
  (∀ (h : HandlerId) (s : State), h ≠ 0 → ∃ t, exec (.icuRegister h) s = .next t ∧ t.slot = h ∧
    ChangesOnly [.slot] s t ∧ (s.slot = h → t = s) ∧
    (∀ u, takeInterrupt t = .next u → u.ilog = s.ilog ++ [h]) ∧
    (∀ w, decode w = .ok (.icuRegister h) → handlerWord w s = .next t)) ∧
  (∀ s : State, exec (.icuRegister 0) s = .refused .reservedWord)

/-- ICU_DEINIT completes in every state: it disables the interrupt and empties the slot and touches nothing
else, so the counter runs on, edges are still latched, and no dispatch happens (R96; decision D14). -/
def Obligations.IcuDeinitDisablesNotification : Prop :=
  ∀ s : State, ∃ t, exec .icuDeinit s = .next t ∧ t.icie = false ∧ t.slot = 0 ∧
    ChangesOnly [.icie, .slot] s t ∧ turnEnabled .irq t = false ∧
    (∀ pol, s.recognizes pol = true → (evEdge pol t).icr = s.tcnt ∧ (evEdge pol t).icf = true) ∧
    (s.clocked = true → (evTick t).tcnt = s.tcnt + 1)

/-- With GIE = 0 every command still has exactly the effect stated, so no command reads GIE; the dispatch is
disabled, and of all the turns it is the only one whose being enabled depends on GIE (R82, R98 for the capture
unit's commands, R111 and R112 for the other two; that a turn of IRQ while the dispatch is disabled passes is the
model's, log 2). -/
def Obligations.CommandsDoNotReadGie : Prop :=
  (∀ (i : Instr) (s : State) (b : Bool), exec i (s.setGie b) = mapNext (fun t => t.setGie b) (exec i s)) ∧
  (∀ s : State, s.gie = false → turnEnabled .irq s = false ∧ runTurn .irq s = .next s) ∧
  (∀ (t : Turn) (s : State) (b : Bool), t ≠ .irq → turnEnabled t (s.setGie b) = turnEnabled t s)

/-- EV_TICK counts modulo 2^16 exactly while the unit is clocked, changes nothing else, and the wrap leaves no
flag (R100, R101; decisions D1, D6, D42; that a turn of a disabled CLK passes is the model's, log 2). -/
def Obligations.TickCountsModuloTheWidth : Prop :=
  ∀ s : State,
    (turnEnabled .clk s = true ↔ s.presc ≠ .off) ∧
    (s.presc ≠ .off → ∃ t, runTurn .clk s = .next t ∧ t.tcnt.toNat = (s.tcnt.toNat + 1) % 65536 ∧
      ChangesOnly [.tcnt] s t) ∧
    (s.presc = .off → runTurn .clk s = .next s)

/-- EV_EDGE of the armed polarity while clocked latches TCNT and sets ICF, whatever ICIE, GIE and the old ICF
are, and any other edge changes nothing (R102; decisions D6, D12). -/
def Obligations.RecognizedEdgeLatches : Prop :=
  ∀ (pol : Edge) (s : State),
    (s.presc ≠ .off ∧ pol = s.edge → ∃ t, runTurn (.echo pol) s = .next t ∧ t.icr = s.tcnt ∧ t.icf = true ∧
      ChangesOnly [.icr, .icf] s t) ∧
    (¬ (s.presc ≠ .off ∧ pol = s.edge) → runTurn (.echo pol) s = .next s)

/-- EV_GIE writes GIE alone (R103; decision D16). -/
def Obligations.GieIsTheEnvironments : Prop :=
  ∀ (b : Bool) (s : State), ∃ t, runTurn (.gie b) s = .next t ∧ t.gie = b ∧ ChangesOnly [.gie] s t

/-- A tick and a recognized edge at the same instant may be taken in either order, and the latch tells which
(R146; decision D38). -/
def Obligations.TickAndEdgeInEitherOrder : Prop :=
  ∀ (s : State) (ts : List Turn), s.presc ≠ .off →
    (s.turns = .echo s.edge :: .clk :: ts → ∃ t, runFor 2 s = .next t ∧
      t.icr = s.tcnt ∧ t.tcnt = s.tcnt + 1 ∧ t.icf = true) ∧
    (s.turns = .clk :: .echo s.edge :: ts → ∃ t, runFor 2 s = .next t ∧
      t.icr = s.tcnt + 1 ∧ t.tcnt = s.tcnt + 1 ∧ t.icf = true)

/-! ### The capture interrupt -/

/-- EV_DISPATCH is taken exactly when ICF, ICIE and GIE are all 1, always clears ICF, and with an empty slot
does nothing more (R82; decision D12; that a turn of IRQ while the dispatch is disabled passes is the model's,
log 2). -/
def Obligations.DispatchNeedsAllThreeEnables : Prop :=
  ∀ s : State,
    (turnEnabled .irq s = true ↔ s.icf = true ∧ s.icie = true ∧ s.gie = true) ∧
    (¬ (s.icf = true ∧ s.icie = true ∧ s.gie = true) → runTurn .irq s = .next s) ∧
    (s.icf = true ∧ s.icie = true ∧ s.gie = true → runTurn .irq s = takeInterrupt s ∧
      (∀ t, takeInterrupt s = .next t → t.icf = false) ∧
      (s.slot = 0 → ∃ t, takeInterrupt s = .next t ∧ t.icf = false ∧ ChangesOnly [.icf] s t))

/-- Taking the interrupt clears ICF, logs SLOT if it is not empty and runs the handler; nothing is saved, so
MAIN's SEQ and RDTMP and the enables are as before when the step is over, and a new recognized edge can be
dispatched at once (R147, R149). -/
def Obligations.InterruptSavesAndRestoresNothing : Prop :=
  ∀ s : State,
    (∃ v, ChangesOnly [.icf, .ilog] s v ∧ v.icf = false ∧
      v.ilog = (if s.slot = 0 then s.ilog else s.ilog ++ [s.slot]) ∧ takeInterrupt s = runHandler s.slot v) ∧
    (∀ t, takeInterrupt s = .next t →
      t.seq = s.seq ∧ t.rdtmp = s.rdtmp ∧ t.icie = s.icie ∧ t.gie = s.gie ∧
      ChangesOnly [.icf, .ilog, .tcnt, .edge, .slot, .byte .phase, .byte .pwLo, .byte .pwHi] s t ∧
      (s.dispatchEnabled = true → ∀ pol, t.recognizes pol = true → turnEnabled .irq (evEdge pol t) = true))

/-- H_ECHO runs inside a dispatch with SLOT = 1 and always completes: in WFR it clears the counter, arms
Falling and moves to WFF without reading ICR; in WFF it copies ICR to PW, arms Rising and moves to READY; in
any other phase it does nothing. No command invokes it (R120). -/
def Obligations.EchoHandlerBranches : Prop :=
  (∀ s : State, Memory.wf s.mem = true → s.slot = Config.hEcho →
    ∃ t, takeInterrupt s = .next t ∧ t.icf = false ∧ t.ilog = s.ilog ++ [Config.hEcho] ∧
      (s.phase = Phase.wfr.code → t.tcnt = 0 ∧ t.edge = .falling ∧ t.phase = Phase.wff.code ∧
        ChangesOnly [.icf, .ilog, .tcnt, .edge, .byte .phase] s t) ∧
      (s.phase = Phase.wff.code → t.pw = s.icr ∧ t.edge = .rising ∧ t.phase = Phase.ready.code ∧
        ChangesOnly [.icf, .ilog, .edge, .byte .phase, .byte .pwLo, .byte .pwHi] s t) ∧
      (s.phase ≠ Phase.wfr.code → s.phase ≠ Phase.wff.code → ChangesOnly [.icf, .ilog] s t)) ∧
  (∀ (i : Instr) (s t : State), exec i s = .next t →
    t.ilog = s.ilog ∧ t.phase = s.phase ∧ t.pw = s.pw)

/-- In IDLE and in READY a dispatch of H_ECHO alters neither PW nor anything else but ICF and ILOG (R127). -/
def Obligations.EchoHandlerIsANoOpOutsideTheWait : Prop :=
  ∀ s : State, s.slot = Config.hEcho → s.phase = Phase.idle.code ∨ s.phase = Phase.ready.code →
    ∃ t, takeInterrupt s = .next t ∧ t.icf = false ∧ t.ilog = s.ilog ++ [1] ∧ ChangesOnly [.icf, .ilog] s t

/-- A foreign handler's dispatch clears ICF, logs the handler and runs exactly the words of its body in order,
each as the command it encodes but with no response to MAIN; a body of allowed words always completes and writes
at most TCNT, EDGE and SLOT, and a body with any other word is refused as `bad_handler_body` (R84; decision D8;
that the dispatch is where it is refused is log 21). -/
def Obligations.ForeignBodyRunsAllowedWordsOnly : Prop :=
  (∀ s : State, s.slot ≠ 0 → s.slot ≠ Config.hEcho →
    takeInterrupt s =
      runBody (foreignBody s.cfg s.slot) { s with icf := false, ilog := s.ilog ++ [s.slot] } ∧
    (((foreignBody s.cfg s.slot).all allowedInBody = true) → ∃ t, takeInterrupt s = .next t ∧ t.icf = false ∧
      t.ilog = s.ilog ++ [s.slot] ∧ ChangesOnly [.icf, .ilog, .tcnt, .edge, .slot] s t) ∧
    ((∃ w ∈ foreignBody s.cfg s.slot, allowedInBody w = false) → takeInterrupt s = .refused .badHandlerBody)) ∧
  (∀ s : State, runBody [] s = .next s) ∧
  (∀ (w : Byte) (ws : List Byte) (s t : State), handlerWord w s = .next t → runBody (w :: ws) s = runBody ws t) ∧
  (∀ (w : Byte) (i : Instr) (s : State), decode w = .ok i → allowedInBody w = true →
    handlerWord w s = mapNext (fun t => { t with resp := s.resp }) (exec i s))

/-- Every step appends to ILOG either nothing or the handler in SLOT at that moment, the latter only by an
enabled dispatch (R30, R82). -/
def Obligations.DispatchLogsTheHandlerInTheSlot : Prop :=
  ∀ s u : State, step s = .next u →
    u.ilog = s.ilog ∨
    (u.ilog = s.ilog ++ [s.slot] ∧ s.slot ≠ 0 ∧ s.nextTurn = .irq ∧ s.dispatchEnabled = true)

/-- A replaced handler is never invoked again: along any run that steps only from states whose slot is not
`h1`, `h1` is not logged, even if an edge was already pending when the run began (R86). -/
def Obligations.ReplacedHandlerIsNeverInvoked : Prop :=
  ∀ (h1 : HandlerId) (s t : State), ReachesVia (fun u => u.slot ≠ h1) s t →
    ∃ l, t.ilog = s.ilog ++ l ∧ h1 ∉ l

/-- A critical section: while GIE = 0 and the environment does not set it, no handler is invoked and PW is not
written (R51, R103, R148; that a turn of IRQ while the dispatch is disabled passes is the model's, log 2). -/
def Obligations.CriticalSectionHasNoDispatch : Prop :=
  ∀ s t : State, Memory.wf s.mem = true → s.gie = false → ReachesVia (fun u => u.nextTurn ≠ .gie true) s t →
    t.gie = false ∧ t.ilog = s.ilog ∧ t.pw = s.pw

/-! ### Echo ranging -/

/-- US_INIT issued with SEQ = NONE completes and moves MAIN to UI1 and nothing else; while a composite command
is in progress it is not accepted (R111; log 11). -/
def Obligations.UsInitIsIssued : Prop :=
  ∀ s : State,
    (s.seq = .none → ∃ t, exec .usInit s = .next t ∧ t.seq = .ui1 ∧ ChangesOnly [.seq] s t) ∧
    (s.seq ≠ .none → exec .usInit s = .refused .notAccepted)

/-- The micro-steps of US_INIT, each from every state, whatever the other agents did before it: UI1 performs
ICU_INIT CFG_EDGE, CFG_PRESC, UI2 registers H_ECHO, UI3 makes the trigger pin an output carrying TRIG, and each
changes nothing else but SEQ. Carried through with no other agent between them, they leave the unit armed for
Rising with CFG_PRESC, H_ECHO registered and PHASE and PW untouched (R111; order and initial edge are the spec's
decision D19; that UI1 clears ICF is D12; the schedule of the last clause is log 1). -/
def Obligations.UsInitWiresTheBlock : Prop :=
  (∀ s : State, s.seq = .ui1 → ∃ t, microStep s = .next t ∧ t.presc = s.cfg.presc ∧ t.edge = .rising ∧
    t.tcnt = 0 ∧ t.icr = 0 ∧ t.icf = false ∧ t.icie = true ∧ t.seq = .ui2 ∧
    ChangesOnly [.presc, .edge, .tcnt, .icr, .icf, .icie, .seq] s t) ∧
  (∀ s : State, s.seq = .ui2 → ∃ t, microStep s = .next t ∧ t.slot = Config.hEcho ∧ t.seq = .ui3 ∧
    ChangesOnly [.slot, .seq] s t) ∧
  (∀ s : State, s.seq = .ui3 → ∃ t, microStep s = .next t ∧ t.trigDir = .output ∧ t.trigPin = some s.trig ∧
    t.seq = .none ∧ ChangesOnly [.trigDir, .seq] s t) ∧
  (∀ (s : State) (ts : List Turn), s.seq = .none → s.turns = .issue 0x80 :: .main :: .main :: .main :: ts →
    ∃ t, runFor 4 s = .next t ∧ t.presc = s.cfg.presc ∧ t.edge = .rising ∧ t.tcnt = 0 ∧
      t.icr = 0 ∧ t.icf = false ∧ t.icie = true ∧ t.slot = Config.hEcho ∧ t.trigDir = .output ∧
      t.trigPin = some s.trig ∧ t.seq = .none ∧ t.turns = ts ∧
      ChangesOnly [.presc, .edge, .tcnt, .icr, .icf, .icie, .slot, .trigDir, .turns] s t)

/-- US_READ_DISTANCE issued with SEQ = NONE and PHASE = IDLE completes and moves MAIN to RD1 and nothing else;
otherwise it is refused as `reentrant_read` (R112, R125; the decomposition is the spec's decision D20, the
refusal D33). -/
def Obligations.UsReadDistanceIsIssued : Prop :=
  ∀ s : State,
    (s.seq = .none → s.phase = Phase.idle.code →
      ∃ t, exec .usReadDistance s = .next t ∧ t.seq = .rd1 ∧ ChangesOnly [.seq] s t) ∧
    (s.seq ≠ .none ∨ s.phase ≠ Phase.idle.code → exec .usReadDistance s = .refused .reentrantRead)

/-- Steps RD1 to RD3 drive the trigger latch high, hold it and drive it low, and change nothing else; the pin
carries the pulse only if it is an output (R113, R24; decisions D21, D22). -/
def Obligations.TriggerPulse : Prop :=
  ∀ s : State, s.seq = .rd1 →
    ∃ a b c, microStep s = .next a ∧ microStep a = .next b ∧ microStep b = .next c ∧
      a.seq = .rd2 ∧ b.seq = .rd3 ∧ c.seq = .rd4 ∧ a.trig = true ∧ b.trig = true ∧ c.trig = false ∧
      ChangesOnly [.trig, .seq] s a ∧ ChangesOnly [.seq] a b ∧ ChangesOnly [.trig, .seq] s c ∧
      (s.trigDir = .output → a.trigPin = some true ∧ b.trigPin = some true ∧ c.trigPin = some false) ∧
      (s.trigDir = .input → a.trigPin = none ∧ b.trigPin = none ∧ c.trigPin = none)

/-- Step RD4 opens the session: PHASE becomes WFR, MAIN moves to RD5, PW is not cleared (R114). -/
def Obligations.SessionIsOpened : Prop :=
  ∀ s : State, Memory.wf s.mem = true → s.seq = .rd4 →
    ∃ t, microStep s = .next t ∧ t.phase = Phase.wfr.code ∧ t.seq = .rd5 ∧ t.pw = s.pw ∧
      ChangesOnly [.seq, .byte .phase] s t

/-- Step RD5 arms Rising and does not clear ICF: an edge still pending is taken by H_ECHO as this session's
rising edge (R115; its place after RD4 is the spec's decision D20). -/
def Obligations.SessionIsArmed : Prop :=
  ∀ s : State, Memory.wf s.mem = true → s.seq = .rd5 →
    ∃ t, microStep s = .next t ∧ t.edge = .rising ∧ t.seq = .rd6 ∧ t.icf = s.icf ∧ ChangesOnly [.seq, .edge] s t ∧
      (s.slot = Config.hEcho → s.phase = Phase.wfr.code → s.icf = true → s.icie = true → s.gie = true →
        ∃ u, runTurn .irq t = .next u ∧ u.phase = Phase.wff.code ∧ u.tcnt = 0 ∧ u.edge = .falling)

/-- Step RD6 goes on only when PHASE = READY; until then MAIN has no enabled step and a poll changes nothing;
only a dispatch that runs the falling-edge branch of H_ECHO lifts the hold; and as long as it has not, MAIN
stays at RD6 (R116). -/
def Obligations.WaitHoldsUntilReady : Prop :=
  (∀ s : State, s.seq = .rd6 →
    (s.phase = Phase.ready.code → turnEnabled .main s = true ∧
      ∃ t, microStep s = .next t ∧ t.seq = .rd7 ∧ ChangesOnly [.seq] s t) ∧
    (s.phase ≠ Phase.ready.code → turnEnabled .main s = false ∧ microStep s = .next s)) ∧
  (∀ s u : State, Memory.wf s.mem = true → s.phase ≠ Phase.ready.code → step s = .next u →
    u.phase = Phase.ready.code →
      s.nextTurn = .irq ∧ s.dispatchEnabled = true ∧ s.slot = Config.hEcho ∧ s.phase = Phase.wff.code) ∧
  (∀ s t : State, s.seq = .rd6 → ReachesVia (fun u => u.phase ≠ Phase.ready.code) s t →
    t.seq = .rd6 ∧ t.resp = s.resp)

/-- The wait has no timeout: MAIN stays at RD6 for ever, and nothing is responded, if no edge of the armed
polarity comes and none is pending, if GIE stays 0, if ICIE is 0, if the prescaler is off with no edge
pending, or if SLOT is not H_ECHO during the wait (R124; kept by the spec's decision D32; that turns
of disabled agents pass is the model's, log 2). -/
def Obligations.WaitHasNoTimeout : Prop :=
  ∀ s t : State, Memory.wf s.mem = true → s.seq = .rd6 → s.phase ≠ Phase.ready.code →
    ((s.icf = false ∧ ReachesVia (fun u => u.nextTurn ≠ .echo s.edge) s t) ∨
     ReachesVia (fun u => u.gie = false) s t ∨
     (s.icie = false ∧ ReachesVia (fun _ => True) s t) ∨
     (s.presc = .off ∧ s.icf = false ∧ ReachesVia (fun _ => True) s t) ∨
     ReachesVia (fun u => u.slot ≠ Config.hEcho) s t) →
    t.seq = .rd6 ∧ t.phase ≠ Phase.ready.code ∧ t.resp = s.resp

/-- While MAIN waits with H_ECHO registered, the armed polarity stays the one the phase waits for, so a stray
falling edge before the rising one, and a stray rising edge before the falling one, change nothing (R50, R121). -/
def Obligations.StrayEdgesAreNotObserved : Prop :=
  (∀ s t : State, Memory.wf s.mem = true → s.seq = .rd6 → s.slot = Config.hEcho → ArmedFits s →
    ReachesVia (fun u => u.seq = .rd6) s t → ArmedFits t ∧ t.slot = Config.hEcho) ∧
  (∀ s : State, ArmedFits s →
    (s.phase = Phase.wfr.code → runTurn (.echo .falling) s = .next s) ∧
    (s.phase = Phase.wff.code → runTurn (.echo .rising) s = .next s))

/-- Step RD7 copies PW to RDTMP and moves MAIN to RD8 (R117). -/
def Obligations.AccumulatorIsRead : Prop :=
  ∀ s : State, s.seq = .rd7 →
    ∃ t, microStep s = .next t ∧ t.rdtmp = s.pw ∧ t.seq = .rd8 ∧ ChangesOnly [.rdtmp, .seq] s t

/-- Step RD8 closes the session: PHASE becomes IDLE and MAIN moves to RD9; and the call returns, by RD9, only
with PHASE = IDLE (R118). -/
def Obligations.SessionIsClosed : Prop :=
  (∀ s : State, Memory.wf s.mem = true → s.seq = .rd8 →
    ∃ t, microStep s = .next t ∧ t.phase = Phase.idle.code ∧ t.seq = .rd9 ∧ ChangesOnly [.seq, .byte .phase] s t) ∧
  (∀ s t : State, SessionInv s → s.seq = .rd9 → microStep s = .next t →
    t.seq = .none ∧ t.phase = Phase.idle.code)

/-- Step RD9 responds Convert of RDTMP with the divisor of PRESC as it stands and returns; F_CPU_HZ = 0 is
refused as `bad_config` (R119, R136; decisions D27, D28; the refusal's place is log 13). -/
def Obligations.DistanceIsResponded : Prop :=
  ∀ s : State, s.seq = .rd9 →
    (s.cfg.fCpuHz ≠ 0 → ∃ t, microStep s = .next t ∧
      t.resp = s.resp ++ [convert s.rdtmp (divisor s.presc) s.cfg.fCpuHz s.cfg.calOffset] ∧ t.seq = .none ∧
      ChangesOnly [.resp, .seq] s t) ∧
    (s.cfg.fCpuHz = 0 → microStep s = .refused .badConfig)

/-- A whole session measures the pulse. From any state in which the block is ready to measure, whatever PW,
ICR, TCNT and RDTMP hold, the call responds Convert of the number of ticks, modulo 2^16, between the dispatch
of the rising edge and the falling edge. Ticks, edges of the polarity not armed, changes of GIE and turns of IRQ
with no edge pending may come in any number between any two of MAIN's steps, from the call to RD9, and between
an edge and its dispatch all of these but a turn of IRQ; only at each of the two dispatches must GIE be 1. Ticks
of interrupt latency are not counted; and the block is ready for the next session as before (R112, R119, R122,
R123, R128; the schedule is log 1, a turn of a disabled agent log 2). -/
def Obligations.SessionMeasuresThePulse : Prop :=
  ∀ (s : State) (opening before riseLatency pulse fallLatency closing rest : List Turn),
    SessionInv s → s.seq = .none → s.slot = Config.hEcho → s.icie = true → s.icf = false →
    s.presc ≠ .off → s.cfg.fCpuHz ≠ 0 →
    (∀ t ∈ opening, quietTurn s.edge t = true) → opening.count .main = 4 →
    (∀ t ∈ before, quietTurn .rising t = true) → (∀ t ∈ riseLatency, latencyTurn .rising t = true) →
    (∀ t ∈ pulse, quietTurn .falling t = true) → (∀ t ∈ fallLatency, latencyTurn .falling t = true) →
    (∀ t ∈ closing, quietTurn .rising t = true) → closing.count .main = 4 →
    gieAfter s.gie (opening ++ before ++ riseLatency) = true →
    gieAfter s.gie (opening ++ before ++ riseLatency ++ pulse ++ fallLatency) = true →
    s.turns = sessionTurns opening before riseLatency pulse fallLatency closing ++ rest →
    ∃ t, runFor (sessionTurns opening before riseLatency pulse fallLatency closing).length s = .next t ∧
      t.pw = BitVec.ofNat 16 (pulse.count .clk) ∧
      t.resp = s.resp ++
        [convert (BitVec.ofNat 16 (pulse.count .clk)) (divisor s.presc) s.cfg.fCpuHz s.cfg.calOffset] ∧
      t.seq = .none ∧ t.phase = Phase.idle.code ∧ t.edge = .rising ∧ t.icf = false ∧ t.trig = false ∧
      t.gie = gieAfter s.gie (opening ++ before ++ riseLatency ++ pulse ++ fallLatency ++ closing) ∧
      t.ilog = s.ilog ++ [1, 1] ∧ t.turns = rest ∧
      ChangesOnly [.tcnt, .icr, .edge, .icf, .byte .pwLo, .byte .pwHi, .rdtmp, .trig, .gie, .ilog, .resp,
        .turns] s t

/-! ### Session memory and values nobody reads -/

/-- PW written whole reads back whole, low byte first, and leaves PHASE alone; PHASE written leaves both bytes
of PW alone, reads back as its code with bits 7:2 zero, and both keep the canonical form (R40, R42, R44; the
byte order is the spec's decision D30). -/
def Obligations.SessionMemoryReadsBack : Prop :=
  ∀ (s : State) (v : Word) (p : Phase), Memory.wf s.mem = true →
    (s.setPw v).pw = v ∧ (s.setPw v).byte .pwLo = v.extractLsb' 0 8 ∧
    (s.setPw v).byte .pwHi = v.extractLsb' 8 8 ∧ (s.setPw v).phase = s.phase ∧
    (s.setPhase p).phase = p.code ∧ (s.setPhase p).phase.extractLsb' 2 6 = 0 ∧ (s.setPhase p).pw = s.pw ∧
    Memory.wf (s.setPw v).mem = true ∧ Memory.wf (s.setPhase p).mem = true

/-- No rule reads ILOG or the responses: a step from a state with a longer past of both does the same and
leaves the longer past (R30, R31; log 14). -/
def Obligations.ObservationsAreNotRead : Prop :=
  ∀ (s : State) (l : List HandlerId) (r : List Word),
    step { s with ilog := l ++ s.ilog, resp := r ++ s.resp } =
      mapNext (fun t => { t with ilog := l ++ t.ilog, resp := r ++ t.resp }) (step s)

/-- No rule reads TRIG_HOLD_MS (R5, R113). -/
def Obligations.TriggerHoldIsNotRead : Prop :=
  ∀ (s : State) (n : Nat),
    step { s with cfg := { s.cfg with trigHoldMs := n } } =
      mapNext (fun t => { t with cfg := { t.cfg with trigHoldMs := n } }) (step s)

/-- No step but MAIN's step RD9 reads RDTMP: not a turn of another agent, not even while SEQ = RD9. RD7
overwrites it, so its value after reset, which the model chose (log 5), reaches nothing (R23; decision D20). -/
def Obligations.LocalCopyIsReadByRD9Only : Prop :=
  ∀ (s : State) (v : Word), ¬ (s.seq = .rd9 ∧ s.nextTurn = .main) →
    mapNext (fun t => t.setRdtmp 0) (step (s.setRdtmp v)) = mapNext (fun t => t.setRdtmp 0) (step s) ∧
    (s.seq = .rd7 → s.nextTurn = .main → step (s.setRdtmp v) = step s)

/-! ### Distance conversion -/

/-- Convert truncates the exact quotient once, saturates it at 65535, applies the offset by the signed
comparison, and saturates again: the result never wraps (R131, R132, R134; decisions D23 to D27). -/
def Obligations.ConvertIsTheTruncatedExactValue : Prop :=
  ∀ (t : Word) (p : Nat) (f : BitVec 32) (k : BitVec 16), f ≠ 0 →
    ∃ q : Nat, q * f.toNat ≤ t.toNat * 17150 * p ∧ t.toNat * 17150 * p < (q + 1) * f.toNat ∧
      ((convert t p f k).toNat : Int) =
        min (if (min q 65535 : Int) > k.toInt then (min q 65535 : Int) - k.toInt else (min q 65535 : Int)) 65535

/-- The calibration offset is subtracted only if the raw distance exceeds it, compared as integers: at equality
it is not applied, a negative one always is and increases the result, and the result of a subtraction is at
least 1 (R133). -/
def Obligations.CalibrationOffsetIsClamped : Prop :=
  ∀ (raw : Nat) (k : Int),
    ((raw : Int) > k → (adjustDistance raw k : Int) = raw - k ∧ 1 ≤ adjustDistance raw k) ∧
    ((raw : Int) ≤ k → adjustDistance raw k = raw) ∧
    (k < 0 → (adjustDistance raw k : Int) = raw + k.natAbs ∧ raw < adjustDistance raw k) ∧
    adjustDistance 27 (-1) = 28

/-- With the prescaler disabled the converter gives 0, or the magnitude of a negative offset (R135; decision
D6). -/
def Obligations.DisabledPrescalerConvertsToTheOffset : Prop :=
  ∀ (t : Word) (f : BitVec 32) (k : BitVec 16),
    (0 ≤ k.toInt → convert t (divisor .off) f k = 0) ∧
    (k.toInt < 0 → ((convert t (divisor .off) f k).toNat : Int) = - k.toInt)
end

