-- ==== Sys2Proof/Laws/Decode.lean ====
section
/-! SUPPORT. What decoding a word can answer: the encoder's word determines the command. -/

namespace Sys2Proof

/-- ICU_REGISTER is never decoded with the empty identifier (spec/30_encoding.md R65). -/
theorem decode_icuRegister_ne {w : Byte} {h : HandlerId} (hd : decode w = .ok (.icuRegister h)) : h ≠ 0#4 := by
  revert hd
  unfold decode decodeEP decodeE decodeN decodeH
  split <;> (try split) <;> intro hd <;> simp at hd
  next hw => exact hd ▸ hw

/-- The word 0x90 is US_READ_DISTANCE and 0x80 is US_INIT (R66). -/
theorem decode_usReadDistance : decode 0x90#8 = .ok .usReadDistance := by decide

theorem decode_usInit : decode 0x80#8 = .ok .usInit := by decide

end Sys2Proof
end

