-- ==== Sys2Proof/Laws/State.lean ====
section
/-! SUPPORT. What each state operation leaves in each field: one lemma per field per operation, so that no
proof unfolds a record update. Session memory is in Laws/Memory.lean. -/

namespace Sys2Proof.Machine

variable (s : State)


@[simp] theorem State.initUnit_cfg (e : Edge) (p : Prescaler) : (s.initUnit e p).cfg = s.cfg := rfl
@[simp] theorem State.initUnit_tcnt (e : Edge) (p : Prescaler) : (s.initUnit e p).tcnt = 0#16 := rfl
@[simp] theorem State.initUnit_icr (e : Edge) (p : Prescaler) : (s.initUnit e p).icr = 0#16 := rfl
@[simp] theorem State.initUnit_presc (e : Edge) (p : Prescaler) : (s.initUnit e p).presc = p := rfl
@[simp] theorem State.initUnit_edge (e : Edge) (p : Prescaler) : (s.initUnit e p).edge = e := rfl
@[simp] theorem State.initUnit_icie (e : Edge) (p : Prescaler) : (s.initUnit e p).icie = true := rfl
@[simp] theorem State.initUnit_icf (e : Edge) (p : Prescaler) : (s.initUnit e p).icf = false := rfl
@[simp] theorem State.initUnit_slot (e : Edge) (p : Prescaler) : (s.initUnit e p).slot = s.slot := rfl
@[simp] theorem State.initUnit_mem (e : Edge) (p : Prescaler) : (s.initUnit e p).mem = s.mem := rfl
@[simp] theorem State.initUnit_rdtmp (e : Edge) (p : Prescaler) : (s.initUnit e p).rdtmp = s.rdtmp := rfl
@[simp] theorem State.initUnit_trigDir (e : Edge) (p : Prescaler) : (s.initUnit e p).trigDir = s.trigDir := rfl
@[simp] theorem State.initUnit_trig (e : Edge) (p : Prescaler) : (s.initUnit e p).trig = s.trig := rfl
@[simp] theorem State.initUnit_seq (e : Edge) (p : Prescaler) : (s.initUnit e p).seq = s.seq := rfl
@[simp] theorem State.initUnit_gie (e : Edge) (p : Prescaler) : (s.initUnit e p).gie = s.gie := rfl
@[simp] theorem State.initUnit_ilog (e : Edge) (p : Prescaler) : (s.initUnit e p).ilog = s.ilog := rfl
@[simp] theorem State.initUnit_resp (e : Edge) (p : Prescaler) : (s.initUnit e p).resp = s.resp := rfl
@[simp] theorem State.initUnit_turns (e : Edge) (p : Prescaler) : (s.initUnit e p).turns = s.turns := rfl
@[simp] theorem State.initUnit_draws (e : Edge) (p : Prescaler) : (s.initUnit e p).draws = s.draws := rfl
@[simp] theorem State.initUnit_byte (e : Edge) (p : Prescaler) (k : SessionByte) : (s.initUnit e p).byte k = s.byte k := rfl
@[simp] theorem State.initUnit_phase (e : Edge) (p : Prescaler) : (s.initUnit e p).phase = s.phase := rfl
@[simp] theorem State.initUnit_pw (e : Edge) (p : Prescaler) : (s.initUnit e p).pw = s.pw := rfl

@[simp] theorem State.setEdge_cfg (e : Edge) : (s.setEdge e).cfg = s.cfg := rfl
@[simp] theorem State.setEdge_tcnt (e : Edge) : (s.setEdge e).tcnt = s.tcnt := rfl
@[simp] theorem State.setEdge_icr (e : Edge) : (s.setEdge e).icr = s.icr := rfl
@[simp] theorem State.setEdge_presc (e : Edge) : (s.setEdge e).presc = s.presc := rfl
@[simp] theorem State.setEdge_edge (e : Edge) : (s.setEdge e).edge = e := rfl
@[simp] theorem State.setEdge_icie (e : Edge) : (s.setEdge e).icie = s.icie := rfl
@[simp] theorem State.setEdge_icf (e : Edge) : (s.setEdge e).icf = s.icf := rfl
@[simp] theorem State.setEdge_slot (e : Edge) : (s.setEdge e).slot = s.slot := rfl
@[simp] theorem State.setEdge_mem (e : Edge) : (s.setEdge e).mem = s.mem := rfl
@[simp] theorem State.setEdge_rdtmp (e : Edge) : (s.setEdge e).rdtmp = s.rdtmp := rfl
@[simp] theorem State.setEdge_trigDir (e : Edge) : (s.setEdge e).trigDir = s.trigDir := rfl
@[simp] theorem State.setEdge_trig (e : Edge) : (s.setEdge e).trig = s.trig := rfl
@[simp] theorem State.setEdge_seq (e : Edge) : (s.setEdge e).seq = s.seq := rfl
@[simp] theorem State.setEdge_gie (e : Edge) : (s.setEdge e).gie = s.gie := rfl
@[simp] theorem State.setEdge_ilog (e : Edge) : (s.setEdge e).ilog = s.ilog := rfl
@[simp] theorem State.setEdge_resp (e : Edge) : (s.setEdge e).resp = s.resp := rfl
@[simp] theorem State.setEdge_turns (e : Edge) : (s.setEdge e).turns = s.turns := rfl
@[simp] theorem State.setEdge_draws (e : Edge) : (s.setEdge e).draws = s.draws := rfl
@[simp] theorem State.setEdge_byte (e : Edge) (k : SessionByte) : (s.setEdge e).byte k = s.byte k := rfl
@[simp] theorem State.setEdge_phase (e : Edge) : (s.setEdge e).phase = s.phase := rfl
@[simp] theorem State.setEdge_pw (e : Edge) : (s.setEdge e).pw = s.pw := rfl

@[simp] theorem State.clearCounter_cfg : s.clearCounter.cfg = s.cfg := rfl
@[simp] theorem State.clearCounter_tcnt : s.clearCounter.tcnt = 0#16 := rfl
@[simp] theorem State.clearCounter_icr : s.clearCounter.icr = s.icr := rfl
@[simp] theorem State.clearCounter_presc : s.clearCounter.presc = s.presc := rfl
@[simp] theorem State.clearCounter_edge : s.clearCounter.edge = s.edge := rfl
@[simp] theorem State.clearCounter_icie : s.clearCounter.icie = s.icie := rfl
@[simp] theorem State.clearCounter_icf : s.clearCounter.icf = s.icf := rfl
@[simp] theorem State.clearCounter_slot : s.clearCounter.slot = s.slot := rfl
@[simp] theorem State.clearCounter_mem : s.clearCounter.mem = s.mem := rfl
@[simp] theorem State.clearCounter_rdtmp : s.clearCounter.rdtmp = s.rdtmp := rfl
@[simp] theorem State.clearCounter_trigDir : s.clearCounter.trigDir = s.trigDir := rfl
@[simp] theorem State.clearCounter_trig : s.clearCounter.trig = s.trig := rfl
@[simp] theorem State.clearCounter_seq : s.clearCounter.seq = s.seq := rfl
@[simp] theorem State.clearCounter_gie : s.clearCounter.gie = s.gie := rfl
@[simp] theorem State.clearCounter_ilog : s.clearCounter.ilog = s.ilog := rfl
@[simp] theorem State.clearCounter_resp : s.clearCounter.resp = s.resp := rfl
@[simp] theorem State.clearCounter_turns : s.clearCounter.turns = s.turns := rfl
@[simp] theorem State.clearCounter_draws : s.clearCounter.draws = s.draws := rfl
@[simp] theorem State.clearCounter_byte (k : SessionByte) : s.clearCounter.byte k = s.byte k := rfl
@[simp] theorem State.clearCounter_phase : s.clearCounter.phase = s.phase := rfl
@[simp] theorem State.clearCounter_pw : s.clearCounter.pw = s.pw := rfl

@[simp] theorem State.setSlot_cfg (h : HandlerId) : (s.setSlot h).cfg = s.cfg := rfl
@[simp] theorem State.setSlot_tcnt (h : HandlerId) : (s.setSlot h).tcnt = s.tcnt := rfl
@[simp] theorem State.setSlot_icr (h : HandlerId) : (s.setSlot h).icr = s.icr := rfl
@[simp] theorem State.setSlot_presc (h : HandlerId) : (s.setSlot h).presc = s.presc := rfl
@[simp] theorem State.setSlot_edge (h : HandlerId) : (s.setSlot h).edge = s.edge := rfl
@[simp] theorem State.setSlot_icie (h : HandlerId) : (s.setSlot h).icie = s.icie := rfl
@[simp] theorem State.setSlot_icf (h : HandlerId) : (s.setSlot h).icf = s.icf := rfl
@[simp] theorem State.setSlot_slot (h : HandlerId) : (s.setSlot h).slot = h := rfl
@[simp] theorem State.setSlot_mem (h : HandlerId) : (s.setSlot h).mem = s.mem := rfl
@[simp] theorem State.setSlot_rdtmp (h : HandlerId) : (s.setSlot h).rdtmp = s.rdtmp := rfl
@[simp] theorem State.setSlot_trigDir (h : HandlerId) : (s.setSlot h).trigDir = s.trigDir := rfl
@[simp] theorem State.setSlot_trig (h : HandlerId) : (s.setSlot h).trig = s.trig := rfl
@[simp] theorem State.setSlot_seq (h : HandlerId) : (s.setSlot h).seq = s.seq := rfl
@[simp] theorem State.setSlot_gie (h : HandlerId) : (s.setSlot h).gie = s.gie := rfl
@[simp] theorem State.setSlot_ilog (h : HandlerId) : (s.setSlot h).ilog = s.ilog := rfl
@[simp] theorem State.setSlot_resp (h : HandlerId) : (s.setSlot h).resp = s.resp := rfl
@[simp] theorem State.setSlot_turns (h : HandlerId) : (s.setSlot h).turns = s.turns := rfl
@[simp] theorem State.setSlot_draws (h : HandlerId) : (s.setSlot h).draws = s.draws := rfl
@[simp] theorem State.setSlot_byte (h : HandlerId) (k : SessionByte) : (s.setSlot h).byte k = s.byte k := rfl
@[simp] theorem State.setSlot_phase (h : HandlerId) : (s.setSlot h).phase = s.phase := rfl
@[simp] theorem State.setSlot_pw (h : HandlerId) : (s.setSlot h).pw = s.pw := rfl

@[simp] theorem State.deinitUnit_cfg : s.deinitUnit.cfg = s.cfg := rfl
@[simp] theorem State.deinitUnit_tcnt : s.deinitUnit.tcnt = s.tcnt := rfl
@[simp] theorem State.deinitUnit_icr : s.deinitUnit.icr = s.icr := rfl
@[simp] theorem State.deinitUnit_presc : s.deinitUnit.presc = s.presc := rfl
@[simp] theorem State.deinitUnit_edge : s.deinitUnit.edge = s.edge := rfl
@[simp] theorem State.deinitUnit_icie : s.deinitUnit.icie = false := rfl
@[simp] theorem State.deinitUnit_icf : s.deinitUnit.icf = s.icf := rfl
@[simp] theorem State.deinitUnit_slot : s.deinitUnit.slot = 0#4 := rfl
@[simp] theorem State.deinitUnit_mem : s.deinitUnit.mem = s.mem := rfl
@[simp] theorem State.deinitUnit_rdtmp : s.deinitUnit.rdtmp = s.rdtmp := rfl
@[simp] theorem State.deinitUnit_trigDir : s.deinitUnit.trigDir = s.trigDir := rfl
@[simp] theorem State.deinitUnit_trig : s.deinitUnit.trig = s.trig := rfl
@[simp] theorem State.deinitUnit_seq : s.deinitUnit.seq = s.seq := rfl
@[simp] theorem State.deinitUnit_gie : s.deinitUnit.gie = s.gie := rfl
@[simp] theorem State.deinitUnit_ilog : s.deinitUnit.ilog = s.ilog := rfl
@[simp] theorem State.deinitUnit_resp : s.deinitUnit.resp = s.resp := rfl
@[simp] theorem State.deinitUnit_turns : s.deinitUnit.turns = s.turns := rfl
@[simp] theorem State.deinitUnit_draws : s.deinitUnit.draws = s.draws := rfl
@[simp] theorem State.deinitUnit_byte (k : SessionByte) : s.deinitUnit.byte k = s.byte k := rfl
@[simp] theorem State.deinitUnit_phase : s.deinitUnit.phase = s.phase := rfl
@[simp] theorem State.deinitUnit_pw : s.deinitUnit.pw = s.pw := rfl

@[simp] theorem State.respond_cfg (v : Word) : (s.respond v).cfg = s.cfg := rfl
@[simp] theorem State.respond_tcnt (v : Word) : (s.respond v).tcnt = s.tcnt := rfl
@[simp] theorem State.respond_icr (v : Word) : (s.respond v).icr = s.icr := rfl
@[simp] theorem State.respond_presc (v : Word) : (s.respond v).presc = s.presc := rfl
@[simp] theorem State.respond_edge (v : Word) : (s.respond v).edge = s.edge := rfl
@[simp] theorem State.respond_icie (v : Word) : (s.respond v).icie = s.icie := rfl
@[simp] theorem State.respond_icf (v : Word) : (s.respond v).icf = s.icf := rfl
@[simp] theorem State.respond_slot (v : Word) : (s.respond v).slot = s.slot := rfl
@[simp] theorem State.respond_mem (v : Word) : (s.respond v).mem = s.mem := rfl
@[simp] theorem State.respond_rdtmp (v : Word) : (s.respond v).rdtmp = s.rdtmp := rfl
@[simp] theorem State.respond_trigDir (v : Word) : (s.respond v).trigDir = s.trigDir := rfl
@[simp] theorem State.respond_trig (v : Word) : (s.respond v).trig = s.trig := rfl
@[simp] theorem State.respond_seq (v : Word) : (s.respond v).seq = s.seq := rfl
@[simp] theorem State.respond_gie (v : Word) : (s.respond v).gie = s.gie := rfl
@[simp] theorem State.respond_ilog (v : Word) : (s.respond v).ilog = s.ilog := rfl
@[simp] theorem State.respond_resp (v : Word) : (s.respond v).resp = s.resp ++ [v] := rfl
@[simp] theorem State.respond_turns (v : Word) : (s.respond v).turns = s.turns := rfl
@[simp] theorem State.respond_draws (v : Word) : (s.respond v).draws = s.draws := rfl
@[simp] theorem State.respond_byte (v : Word) (k : SessionByte) : (s.respond v).byte k = s.byte k := rfl
@[simp] theorem State.respond_phase (v : Word) : (s.respond v).phase = s.phase := rfl
@[simp] theorem State.respond_pw (v : Word) : (s.respond v).pw = s.pw := rfl

@[simp] theorem State.countUp_cfg : s.countUp.cfg = s.cfg := rfl
@[simp] theorem State.countUp_tcnt : s.countUp.tcnt = s.tcnt + 1#16 := rfl
@[simp] theorem State.countUp_icr : s.countUp.icr = s.icr := rfl
@[simp] theorem State.countUp_presc : s.countUp.presc = s.presc := rfl
@[simp] theorem State.countUp_edge : s.countUp.edge = s.edge := rfl
@[simp] theorem State.countUp_icie : s.countUp.icie = s.icie := rfl
@[simp] theorem State.countUp_icf : s.countUp.icf = s.icf := rfl
@[simp] theorem State.countUp_slot : s.countUp.slot = s.slot := rfl
@[simp] theorem State.countUp_mem : s.countUp.mem = s.mem := rfl
@[simp] theorem State.countUp_rdtmp : s.countUp.rdtmp = s.rdtmp := rfl
@[simp] theorem State.countUp_trigDir : s.countUp.trigDir = s.trigDir := rfl
@[simp] theorem State.countUp_trig : s.countUp.trig = s.trig := rfl
@[simp] theorem State.countUp_seq : s.countUp.seq = s.seq := rfl
@[simp] theorem State.countUp_gie : s.countUp.gie = s.gie := rfl
@[simp] theorem State.countUp_ilog : s.countUp.ilog = s.ilog := rfl
@[simp] theorem State.countUp_resp : s.countUp.resp = s.resp := rfl
@[simp] theorem State.countUp_turns : s.countUp.turns = s.turns := rfl
@[simp] theorem State.countUp_draws : s.countUp.draws = s.draws := rfl
@[simp] theorem State.countUp_byte (k : SessionByte) : s.countUp.byte k = s.byte k := rfl
@[simp] theorem State.countUp_phase : s.countUp.phase = s.phase := rfl
@[simp] theorem State.countUp_pw : s.countUp.pw = s.pw := rfl

@[simp] theorem State.latch_cfg : s.latch.cfg = s.cfg := rfl
@[simp] theorem State.latch_tcnt : s.latch.tcnt = s.tcnt := rfl
@[simp] theorem State.latch_icr : s.latch.icr = s.tcnt := rfl
@[simp] theorem State.latch_presc : s.latch.presc = s.presc := rfl
@[simp] theorem State.latch_edge : s.latch.edge = s.edge := rfl
@[simp] theorem State.latch_icie : s.latch.icie = s.icie := rfl
@[simp] theorem State.latch_icf : s.latch.icf = true := rfl
@[simp] theorem State.latch_slot : s.latch.slot = s.slot := rfl
@[simp] theorem State.latch_mem : s.latch.mem = s.mem := rfl
@[simp] theorem State.latch_rdtmp : s.latch.rdtmp = s.rdtmp := rfl
@[simp] theorem State.latch_trigDir : s.latch.trigDir = s.trigDir := rfl
@[simp] theorem State.latch_trig : s.latch.trig = s.trig := rfl
@[simp] theorem State.latch_seq : s.latch.seq = s.seq := rfl
@[simp] theorem State.latch_gie : s.latch.gie = s.gie := rfl
@[simp] theorem State.latch_ilog : s.latch.ilog = s.ilog := rfl
@[simp] theorem State.latch_resp : s.latch.resp = s.resp := rfl
@[simp] theorem State.latch_turns : s.latch.turns = s.turns := rfl
@[simp] theorem State.latch_draws : s.latch.draws = s.draws := rfl
@[simp] theorem State.latch_byte (k : SessionByte) : s.latch.byte k = s.byte k := rfl
@[simp] theorem State.latch_phase : s.latch.phase = s.phase := rfl
@[simp] theorem State.latch_pw : s.latch.pw = s.pw := rfl

@[simp] theorem State.setGie_cfg (b : Bool) : (s.setGie b).cfg = s.cfg := rfl
@[simp] theorem State.setGie_tcnt (b : Bool) : (s.setGie b).tcnt = s.tcnt := rfl
@[simp] theorem State.setGie_icr (b : Bool) : (s.setGie b).icr = s.icr := rfl
@[simp] theorem State.setGie_presc (b : Bool) : (s.setGie b).presc = s.presc := rfl
@[simp] theorem State.setGie_edge (b : Bool) : (s.setGie b).edge = s.edge := rfl
@[simp] theorem State.setGie_icie (b : Bool) : (s.setGie b).icie = s.icie := rfl
@[simp] theorem State.setGie_icf (b : Bool) : (s.setGie b).icf = s.icf := rfl
@[simp] theorem State.setGie_slot (b : Bool) : (s.setGie b).slot = s.slot := rfl
@[simp] theorem State.setGie_mem (b : Bool) : (s.setGie b).mem = s.mem := rfl
@[simp] theorem State.setGie_rdtmp (b : Bool) : (s.setGie b).rdtmp = s.rdtmp := rfl
@[simp] theorem State.setGie_trigDir (b : Bool) : (s.setGie b).trigDir = s.trigDir := rfl
@[simp] theorem State.setGie_trig (b : Bool) : (s.setGie b).trig = s.trig := rfl
@[simp] theorem State.setGie_seq (b : Bool) : (s.setGie b).seq = s.seq := rfl
@[simp] theorem State.setGie_gie (b : Bool) : (s.setGie b).gie = b := rfl
@[simp] theorem State.setGie_ilog (b : Bool) : (s.setGie b).ilog = s.ilog := rfl
@[simp] theorem State.setGie_resp (b : Bool) : (s.setGie b).resp = s.resp := rfl
@[simp] theorem State.setGie_turns (b : Bool) : (s.setGie b).turns = s.turns := rfl
@[simp] theorem State.setGie_draws (b : Bool) : (s.setGie b).draws = s.draws := rfl
@[simp] theorem State.setGie_byte (b : Bool) (k : SessionByte) : (s.setGie b).byte k = s.byte k := rfl
@[simp] theorem State.setGie_phase (b : Bool) : (s.setGie b).phase = s.phase := rfl
@[simp] theorem State.setGie_pw (b : Bool) : (s.setGie b).pw = s.pw := rfl

@[simp] theorem State.goto_cfg (q : Seq) : (s.goto q).cfg = s.cfg := rfl
@[simp] theorem State.goto_tcnt (q : Seq) : (s.goto q).tcnt = s.tcnt := rfl
@[simp] theorem State.goto_icr (q : Seq) : (s.goto q).icr = s.icr := rfl
@[simp] theorem State.goto_presc (q : Seq) : (s.goto q).presc = s.presc := rfl
@[simp] theorem State.goto_edge (q : Seq) : (s.goto q).edge = s.edge := rfl
@[simp] theorem State.goto_icie (q : Seq) : (s.goto q).icie = s.icie := rfl
@[simp] theorem State.goto_icf (q : Seq) : (s.goto q).icf = s.icf := rfl
@[simp] theorem State.goto_slot (q : Seq) : (s.goto q).slot = s.slot := rfl
@[simp] theorem State.goto_mem (q : Seq) : (s.goto q).mem = s.mem := rfl
@[simp] theorem State.goto_rdtmp (q : Seq) : (s.goto q).rdtmp = s.rdtmp := rfl
@[simp] theorem State.goto_trigDir (q : Seq) : (s.goto q).trigDir = s.trigDir := rfl
@[simp] theorem State.goto_trig (q : Seq) : (s.goto q).trig = s.trig := rfl
@[simp] theorem State.goto_seq (q : Seq) : (s.goto q).seq = q := rfl
@[simp] theorem State.goto_gie (q : Seq) : (s.goto q).gie = s.gie := rfl
@[simp] theorem State.goto_ilog (q : Seq) : (s.goto q).ilog = s.ilog := rfl
@[simp] theorem State.goto_resp (q : Seq) : (s.goto q).resp = s.resp := rfl
@[simp] theorem State.goto_turns (q : Seq) : (s.goto q).turns = s.turns := rfl
@[simp] theorem State.goto_draws (q : Seq) : (s.goto q).draws = s.draws := rfl
@[simp] theorem State.goto_byte (q : Seq) (k : SessionByte) : (s.goto q).byte k = s.byte k := rfl
@[simp] theorem State.goto_phase (q : Seq) : (s.goto q).phase = s.phase := rfl
@[simp] theorem State.goto_pw (q : Seq) : (s.goto q).pw = s.pw := rfl

@[simp] theorem State.setTrig_cfg (b : Bool) : (s.setTrig b).cfg = s.cfg := rfl
@[simp] theorem State.setTrig_tcnt (b : Bool) : (s.setTrig b).tcnt = s.tcnt := rfl
@[simp] theorem State.setTrig_icr (b : Bool) : (s.setTrig b).icr = s.icr := rfl
@[simp] theorem State.setTrig_presc (b : Bool) : (s.setTrig b).presc = s.presc := rfl
@[simp] theorem State.setTrig_edge (b : Bool) : (s.setTrig b).edge = s.edge := rfl
@[simp] theorem State.setTrig_icie (b : Bool) : (s.setTrig b).icie = s.icie := rfl
@[simp] theorem State.setTrig_icf (b : Bool) : (s.setTrig b).icf = s.icf := rfl
@[simp] theorem State.setTrig_slot (b : Bool) : (s.setTrig b).slot = s.slot := rfl
@[simp] theorem State.setTrig_mem (b : Bool) : (s.setTrig b).mem = s.mem := rfl
@[simp] theorem State.setTrig_rdtmp (b : Bool) : (s.setTrig b).rdtmp = s.rdtmp := rfl
@[simp] theorem State.setTrig_trigDir (b : Bool) : (s.setTrig b).trigDir = s.trigDir := rfl
@[simp] theorem State.setTrig_trig (b : Bool) : (s.setTrig b).trig = b := rfl
@[simp] theorem State.setTrig_seq (b : Bool) : (s.setTrig b).seq = s.seq := rfl
@[simp] theorem State.setTrig_gie (b : Bool) : (s.setTrig b).gie = s.gie := rfl
@[simp] theorem State.setTrig_ilog (b : Bool) : (s.setTrig b).ilog = s.ilog := rfl
@[simp] theorem State.setTrig_resp (b : Bool) : (s.setTrig b).resp = s.resp := rfl
@[simp] theorem State.setTrig_turns (b : Bool) : (s.setTrig b).turns = s.turns := rfl
@[simp] theorem State.setTrig_draws (b : Bool) : (s.setTrig b).draws = s.draws := rfl
@[simp] theorem State.setTrig_byte (b : Bool) (k : SessionByte) : (s.setTrig b).byte k = s.byte k := rfl
@[simp] theorem State.setTrig_phase (b : Bool) : (s.setTrig b).phase = s.phase := rfl
@[simp] theorem State.setTrig_pw (b : Bool) : (s.setTrig b).pw = s.pw := rfl

@[simp] theorem State.setTrigDir_cfg (d : PinDir) : (s.setTrigDir d).cfg = s.cfg := rfl
@[simp] theorem State.setTrigDir_tcnt (d : PinDir) : (s.setTrigDir d).tcnt = s.tcnt := rfl
@[simp] theorem State.setTrigDir_icr (d : PinDir) : (s.setTrigDir d).icr = s.icr := rfl
@[simp] theorem State.setTrigDir_presc (d : PinDir) : (s.setTrigDir d).presc = s.presc := rfl
@[simp] theorem State.setTrigDir_edge (d : PinDir) : (s.setTrigDir d).edge = s.edge := rfl
@[simp] theorem State.setTrigDir_icie (d : PinDir) : (s.setTrigDir d).icie = s.icie := rfl
@[simp] theorem State.setTrigDir_icf (d : PinDir) : (s.setTrigDir d).icf = s.icf := rfl
@[simp] theorem State.setTrigDir_slot (d : PinDir) : (s.setTrigDir d).slot = s.slot := rfl
@[simp] theorem State.setTrigDir_mem (d : PinDir) : (s.setTrigDir d).mem = s.mem := rfl
@[simp] theorem State.setTrigDir_rdtmp (d : PinDir) : (s.setTrigDir d).rdtmp = s.rdtmp := rfl
@[simp] theorem State.setTrigDir_trigDir (d : PinDir) : (s.setTrigDir d).trigDir = d := rfl
@[simp] theorem State.setTrigDir_trig (d : PinDir) : (s.setTrigDir d).trig = s.trig := rfl
@[simp] theorem State.setTrigDir_seq (d : PinDir) : (s.setTrigDir d).seq = s.seq := rfl
@[simp] theorem State.setTrigDir_gie (d : PinDir) : (s.setTrigDir d).gie = s.gie := rfl
@[simp] theorem State.setTrigDir_ilog (d : PinDir) : (s.setTrigDir d).ilog = s.ilog := rfl
@[simp] theorem State.setTrigDir_resp (d : PinDir) : (s.setTrigDir d).resp = s.resp := rfl
@[simp] theorem State.setTrigDir_turns (d : PinDir) : (s.setTrigDir d).turns = s.turns := rfl
@[simp] theorem State.setTrigDir_draws (d : PinDir) : (s.setTrigDir d).draws = s.draws := rfl
@[simp] theorem State.setTrigDir_byte (d : PinDir) (k : SessionByte) : (s.setTrigDir d).byte k = s.byte k := rfl
@[simp] theorem State.setTrigDir_phase (d : PinDir) : (s.setTrigDir d).phase = s.phase := rfl
@[simp] theorem State.setTrigDir_pw (d : PinDir) : (s.setTrigDir d).pw = s.pw := rfl

@[simp] theorem State.setRdtmp_cfg (v : Word) : (s.setRdtmp v).cfg = s.cfg := rfl
@[simp] theorem State.setRdtmp_tcnt (v : Word) : (s.setRdtmp v).tcnt = s.tcnt := rfl
@[simp] theorem State.setRdtmp_icr (v : Word) : (s.setRdtmp v).icr = s.icr := rfl
@[simp] theorem State.setRdtmp_presc (v : Word) : (s.setRdtmp v).presc = s.presc := rfl
@[simp] theorem State.setRdtmp_edge (v : Word) : (s.setRdtmp v).edge = s.edge := rfl
@[simp] theorem State.setRdtmp_icie (v : Word) : (s.setRdtmp v).icie = s.icie := rfl
@[simp] theorem State.setRdtmp_icf (v : Word) : (s.setRdtmp v).icf = s.icf := rfl
@[simp] theorem State.setRdtmp_slot (v : Word) : (s.setRdtmp v).slot = s.slot := rfl
@[simp] theorem State.setRdtmp_mem (v : Word) : (s.setRdtmp v).mem = s.mem := rfl
@[simp] theorem State.setRdtmp_rdtmp (v : Word) : (s.setRdtmp v).rdtmp = v := rfl
@[simp] theorem State.setRdtmp_trigDir (v : Word) : (s.setRdtmp v).trigDir = s.trigDir := rfl
@[simp] theorem State.setRdtmp_trig (v : Word) : (s.setRdtmp v).trig = s.trig := rfl
@[simp] theorem State.setRdtmp_seq (v : Word) : (s.setRdtmp v).seq = s.seq := rfl
@[simp] theorem State.setRdtmp_gie (v : Word) : (s.setRdtmp v).gie = s.gie := rfl
@[simp] theorem State.setRdtmp_ilog (v : Word) : (s.setRdtmp v).ilog = s.ilog := rfl
@[simp] theorem State.setRdtmp_resp (v : Word) : (s.setRdtmp v).resp = s.resp := rfl
@[simp] theorem State.setRdtmp_turns (v : Word) : (s.setRdtmp v).turns = s.turns := rfl
@[simp] theorem State.setRdtmp_draws (v : Word) : (s.setRdtmp v).draws = s.draws := rfl
@[simp] theorem State.setRdtmp_byte (v : Word) (k : SessionByte) : (s.setRdtmp v).byte k = s.byte k := rfl
@[simp] theorem State.setRdtmp_phase (v : Word) : (s.setRdtmp v).phase = s.phase := rfl
@[simp] theorem State.setRdtmp_pw (v : Word) : (s.setRdtmp v).pw = s.pw := rfl

@[simp] theorem State.enterInterrupt_cfg : s.enterInterrupt.cfg = s.cfg := rfl
@[simp] theorem State.enterInterrupt_tcnt : s.enterInterrupt.tcnt = s.tcnt := rfl
@[simp] theorem State.enterInterrupt_icr : s.enterInterrupt.icr = s.icr := rfl
@[simp] theorem State.enterInterrupt_presc : s.enterInterrupt.presc = s.presc := rfl
@[simp] theorem State.enterInterrupt_edge : s.enterInterrupt.edge = s.edge := rfl
@[simp] theorem State.enterInterrupt_icie : s.enterInterrupt.icie = s.icie := rfl
@[simp] theorem State.enterInterrupt_icf : s.enterInterrupt.icf = false := rfl
@[simp] theorem State.enterInterrupt_slot : s.enterInterrupt.slot = s.slot := rfl
@[simp] theorem State.enterInterrupt_mem : s.enterInterrupt.mem = s.mem := rfl
@[simp] theorem State.enterInterrupt_rdtmp : s.enterInterrupt.rdtmp = s.rdtmp := rfl
@[simp] theorem State.enterInterrupt_trigDir : s.enterInterrupt.trigDir = s.trigDir := rfl
@[simp] theorem State.enterInterrupt_trig : s.enterInterrupt.trig = s.trig := rfl
@[simp] theorem State.enterInterrupt_seq : s.enterInterrupt.seq = s.seq := rfl
@[simp] theorem State.enterInterrupt_gie : s.enterInterrupt.gie = s.gie := rfl
@[simp] theorem State.enterInterrupt_ilog : s.enterInterrupt.ilog = if s.slot = 0#4 then s.ilog else s.ilog ++ [s.slot] := rfl
@[simp] theorem State.enterInterrupt_resp : s.enterInterrupt.resp = s.resp := rfl
@[simp] theorem State.enterInterrupt_turns : s.enterInterrupt.turns = s.turns := rfl
@[simp] theorem State.enterInterrupt_draws : s.enterInterrupt.draws = s.draws := rfl
@[simp] theorem State.enterInterrupt_byte (k : SessionByte) : s.enterInterrupt.byte k = s.byte k := rfl
@[simp] theorem State.enterInterrupt_phase : s.enterInterrupt.phase = s.phase := rfl
@[simp] theorem State.enterInterrupt_pw : s.enterInterrupt.pw = s.pw := rfl

@[simp] theorem State.setPhase_cfg (p : Phase) : (s.setPhase p).cfg = s.cfg := rfl
@[simp] theorem State.setPhase_tcnt (p : Phase) : (s.setPhase p).tcnt = s.tcnt := rfl
@[simp] theorem State.setPhase_icr (p : Phase) : (s.setPhase p).icr = s.icr := rfl
@[simp] theorem State.setPhase_presc (p : Phase) : (s.setPhase p).presc = s.presc := rfl
@[simp] theorem State.setPhase_edge (p : Phase) : (s.setPhase p).edge = s.edge := rfl
@[simp] theorem State.setPhase_icie (p : Phase) : (s.setPhase p).icie = s.icie := rfl
@[simp] theorem State.setPhase_icf (p : Phase) : (s.setPhase p).icf = s.icf := rfl
@[simp] theorem State.setPhase_slot (p : Phase) : (s.setPhase p).slot = s.slot := rfl
@[simp] theorem State.setPhase_rdtmp (p : Phase) : (s.setPhase p).rdtmp = s.rdtmp := rfl
@[simp] theorem State.setPhase_trigDir (p : Phase) : (s.setPhase p).trigDir = s.trigDir := rfl
@[simp] theorem State.setPhase_trig (p : Phase) : (s.setPhase p).trig = s.trig := rfl
@[simp] theorem State.setPhase_seq (p : Phase) : (s.setPhase p).seq = s.seq := rfl
@[simp] theorem State.setPhase_gie (p : Phase) : (s.setPhase p).gie = s.gie := rfl
@[simp] theorem State.setPhase_ilog (p : Phase) : (s.setPhase p).ilog = s.ilog := rfl
@[simp] theorem State.setPhase_resp (p : Phase) : (s.setPhase p).resp = s.resp := rfl
@[simp] theorem State.setPhase_turns (p : Phase) : (s.setPhase p).turns = s.turns := rfl
@[simp] theorem State.setPhase_draws (p : Phase) : (s.setPhase p).draws = s.draws := rfl

@[simp] theorem State.setPw_cfg (v : Word) : (s.setPw v).cfg = s.cfg := rfl
@[simp] theorem State.setPw_tcnt (v : Word) : (s.setPw v).tcnt = s.tcnt := rfl
@[simp] theorem State.setPw_icr (v : Word) : (s.setPw v).icr = s.icr := rfl
@[simp] theorem State.setPw_presc (v : Word) : (s.setPw v).presc = s.presc := rfl
@[simp] theorem State.setPw_edge (v : Word) : (s.setPw v).edge = s.edge := rfl
@[simp] theorem State.setPw_icie (v : Word) : (s.setPw v).icie = s.icie := rfl
@[simp] theorem State.setPw_icf (v : Word) : (s.setPw v).icf = s.icf := rfl
@[simp] theorem State.setPw_slot (v : Word) : (s.setPw v).slot = s.slot := rfl
@[simp] theorem State.setPw_rdtmp (v : Word) : (s.setPw v).rdtmp = s.rdtmp := rfl
@[simp] theorem State.setPw_trigDir (v : Word) : (s.setPw v).trigDir = s.trigDir := rfl
@[simp] theorem State.setPw_trig (v : Word) : (s.setPw v).trig = s.trig := rfl
@[simp] theorem State.setPw_seq (v : Word) : (s.setPw v).seq = s.seq := rfl
@[simp] theorem State.setPw_gie (v : Word) : (s.setPw v).gie = s.gie := rfl
@[simp] theorem State.setPw_ilog (v : Word) : (s.setPw v).ilog = s.ilog := rfl
@[simp] theorem State.setPw_resp (v : Word) : (s.setPw v).resp = s.resp := rfl
@[simp] theorem State.setPw_turns (v : Word) : (s.setPw v).turns = s.turns := rfl
@[simp] theorem State.setPw_draws (v : Word) : (s.setPw v).draws = s.draws := rfl

@[simp] theorem State.setTurns_cfg (ts : List Turn) : (s.setTurns ts).cfg = s.cfg := rfl
@[simp] theorem State.setTurns_tcnt (ts : List Turn) : (s.setTurns ts).tcnt = s.tcnt := rfl
@[simp] theorem State.setTurns_icr (ts : List Turn) : (s.setTurns ts).icr = s.icr := rfl
@[simp] theorem State.setTurns_presc (ts : List Turn) : (s.setTurns ts).presc = s.presc := rfl
@[simp] theorem State.setTurns_edge (ts : List Turn) : (s.setTurns ts).edge = s.edge := rfl
@[simp] theorem State.setTurns_icie (ts : List Turn) : (s.setTurns ts).icie = s.icie := rfl
@[simp] theorem State.setTurns_icf (ts : List Turn) : (s.setTurns ts).icf = s.icf := rfl
@[simp] theorem State.setTurns_slot (ts : List Turn) : (s.setTurns ts).slot = s.slot := rfl
@[simp] theorem State.setTurns_mem (ts : List Turn) : (s.setTurns ts).mem = s.mem := rfl
@[simp] theorem State.setTurns_rdtmp (ts : List Turn) : (s.setTurns ts).rdtmp = s.rdtmp := rfl
@[simp] theorem State.setTurns_trigDir (ts : List Turn) : (s.setTurns ts).trigDir = s.trigDir := rfl
@[simp] theorem State.setTurns_trig (ts : List Turn) : (s.setTurns ts).trig = s.trig := rfl
@[simp] theorem State.setTurns_seq (ts : List Turn) : (s.setTurns ts).seq = s.seq := rfl
@[simp] theorem State.setTurns_gie (ts : List Turn) : (s.setTurns ts).gie = s.gie := rfl
@[simp] theorem State.setTurns_ilog (ts : List Turn) : (s.setTurns ts).ilog = s.ilog := rfl
@[simp] theorem State.setTurns_resp (ts : List Turn) : (s.setTurns ts).resp = s.resp := rfl
@[simp] theorem State.setTurns_turns (ts : List Turn) : (s.setTurns ts).turns = ts := rfl
@[simp] theorem State.setTurns_draws (ts : List Turn) : (s.setTurns ts).draws = s.draws := rfl
@[simp] theorem State.setTurns_byte (ts : List Turn) (k : SessionByte) : (s.setTurns ts).byte k = s.byte k := rfl
@[simp] theorem State.setTurns_phase (ts : List Turn) : (s.setTurns ts).phase = s.phase := rfl
@[simp] theorem State.setTurns_pw (ts : List Turn) : (s.setTurns ts).pw = s.pw := rfl

@[simp] theorem State.present_cfg (w : Byte) : (s.present w).cfg = s.cfg := rfl
@[simp] theorem State.present_tcnt (w : Byte) : (s.present w).tcnt = s.tcnt := rfl
@[simp] theorem State.present_icr (w : Byte) : (s.present w).icr = s.icr := rfl
@[simp] theorem State.present_presc (w : Byte) : (s.present w).presc = s.presc := rfl
@[simp] theorem State.present_edge (w : Byte) : (s.present w).edge = s.edge := rfl
@[simp] theorem State.present_icie (w : Byte) : (s.present w).icie = s.icie := rfl
@[simp] theorem State.present_icf (w : Byte) : (s.present w).icf = s.icf := rfl
@[simp] theorem State.present_slot (w : Byte) : (s.present w).slot = s.slot := rfl
@[simp] theorem State.present_mem (w : Byte) : (s.present w).mem = s.mem := rfl
@[simp] theorem State.present_rdtmp (w : Byte) : (s.present w).rdtmp = s.rdtmp := rfl
@[simp] theorem State.present_trigDir (w : Byte) : (s.present w).trigDir = s.trigDir := rfl
@[simp] theorem State.present_trig (w : Byte) : (s.present w).trig = s.trig := rfl
@[simp] theorem State.present_seq (w : Byte) : (s.present w).seq = .none := rfl
@[simp] theorem State.present_gie (w : Byte) : (s.present w).gie = s.gie := rfl
@[simp] theorem State.present_ilog (w : Byte) : (s.present w).ilog = s.ilog := rfl
@[simp] theorem State.present_resp (w : Byte) : (s.present w).resp = s.resp := rfl
@[simp] theorem State.present_turns (w : Byte) : (s.present w).turns = .issue w :: s.turns := rfl
@[simp] theorem State.present_draws (w : Byte) : (s.present w).draws = s.draws := rfl
@[simp] theorem State.present_byte (w : Byte) (k : SessionByte) : (s.present w).byte k = s.byte k := rfl
@[simp] theorem State.present_phase (w : Byte) : (s.present w).phase = s.phase := rfl
@[simp] theorem State.present_pw (w : Byte) : (s.present w).pw = s.pw := rfl

/-! Taking a turn off the schedule touches the schedule alone. -/

@[simp] theorem State.dropTurn_cfg : s.dropTurn.cfg = s.cfg := by unfold State.dropTurn; split <;> rfl
@[simp] theorem State.dropTurn_tcnt : s.dropTurn.tcnt = s.tcnt := by unfold State.dropTurn; split <;> rfl
@[simp] theorem State.dropTurn_icr : s.dropTurn.icr = s.icr := by unfold State.dropTurn; split <;> rfl
@[simp] theorem State.dropTurn_presc : s.dropTurn.presc = s.presc := by unfold State.dropTurn; split <;> rfl
@[simp] theorem State.dropTurn_edge : s.dropTurn.edge = s.edge := by unfold State.dropTurn; split <;> rfl
@[simp] theorem State.dropTurn_icie : s.dropTurn.icie = s.icie := by unfold State.dropTurn; split <;> rfl
@[simp] theorem State.dropTurn_icf : s.dropTurn.icf = s.icf := by unfold State.dropTurn; split <;> rfl
@[simp] theorem State.dropTurn_slot : s.dropTurn.slot = s.slot := by unfold State.dropTurn; split <;> rfl
@[simp] theorem State.dropTurn_mem : s.dropTurn.mem = s.mem := by unfold State.dropTurn; split <;> rfl
@[simp] theorem State.dropTurn_rdtmp : s.dropTurn.rdtmp = s.rdtmp := by unfold State.dropTurn; split <;> rfl
@[simp] theorem State.dropTurn_trigDir : s.dropTurn.trigDir = s.trigDir := by unfold State.dropTurn; split <;> rfl
@[simp] theorem State.dropTurn_trig : s.dropTurn.trig = s.trig := by unfold State.dropTurn; split <;> rfl
@[simp] theorem State.dropTurn_seq : s.dropTurn.seq = s.seq := by unfold State.dropTurn; split <;> rfl
@[simp] theorem State.dropTurn_gie : s.dropTurn.gie = s.gie := by unfold State.dropTurn; split <;> rfl
@[simp] theorem State.dropTurn_ilog : s.dropTurn.ilog = s.ilog := by unfold State.dropTurn; split <;> rfl
@[simp] theorem State.dropTurn_resp : s.dropTurn.resp = s.resp := by unfold State.dropTurn; split <;> rfl
@[simp] theorem State.dropTurn_byte (k : SessionByte) : s.dropTurn.byte k = s.byte k := by
  simp [State.byte]
@[simp] theorem State.dropTurn_phase : s.dropTurn.phase = s.phase := by simp [State.phase]
@[simp] theorem State.dropTurn_pw : s.dropTurn.pw = s.pw := by simp [State.pw]

theorem State.nextTurn_of_turns {s : State} {t : Turn} {ts : List Turn} (h : s.turns = t :: ts) :
    s.nextTurn = t := by simp [State.nextTurn, h]

theorem State.dropTurn_of_turns {s : State} {t : Turn} {ts : List Turn} (h : s.turns = t :: ts) :
    s.dropTurn = s.setTurns ts := by simp [State.dropTurn, h]

end Sys2Proof.Machine
end

