-- ==== Sys2Proof/Laws/Memory.lean ====
section
/-! SUPPORT. Session memory: a read after a write to the same byte gives the value written, a write leaves
every other byte alone, and every write keeps the canonical form. -/

namespace Sys2Proof.Machine

theorem memByte_below {lo : Nat} {m : List Host.Cell} (h : Memory.wfFrom lo m = true) {k : Nat}
    (hk : k < lo) : memByte m k = 0#8 := by
  induction m generalizing lo with
  | nil => rfl
  | cons c m ih =>
    obtain ⟨a, v⟩ := c
    simp only [Memory.wfFrom, Bool.and_eq_true, decide_eq_true_eq] at h
    simp only [memByte]
    rw [if_neg (by omega), ih h.2 (by omega)]

theorem memByte_memPut_same {lo : Nat} {m : List Host.Cell} (h : Memory.wfFrom lo m = true) (k : Nat)
    (v : Byte) : memByte (memPut k v m) k = v := by
  induction m generalizing lo with
  | nil => by_cases hv : v = 0#8 <;> simp [memPut, memByte, hv]
  | cons c m ih =>
    obtain ⟨a, u⟩ := c
    simp only [Memory.wfFrom, Bool.and_eq_true, decide_eq_true_eq] at h
    simp only [memPut]
    split
    · by_cases hv : v = 0#8
      · simp only [hv, if_true, memByte]
        rw [if_neg (by omega), memByte_below h.2 (by omega)]
      · simp [hv, memByte]
    · split
      · next hka =>
        by_cases hv : v = 0#8
        · simp only [hv, if_true]
          exact memByte_below h.2 (by omega)
        · simp [hv, memByte]
      · next hka =>
        simp only [memByte]
        rw [if_neg (fun e => hka e.symm), ih h.2]

theorem memByte_memPut_other (m : List Host.Cell) {k j : Nat} (hj : j ≠ k) (v : Byte) :
    memByte (memPut k v m) j = memByte m j := by
  induction m with
  | nil => by_cases hv : v = 0#8 <;> simp [memPut, memByte, hv, hj.symm]
  | cons c m ih =>
    obtain ⟨a, u⟩ := c
    simp only [memPut]
    split
    · by_cases hv : v = 0#8 <;> simp [hv, memByte, hj.symm]
    · split
      · next hka =>
        subst hka
        by_cases hv : v = 0#8 <;> simp [hv, memByte, hj.symm]
      · simp [memByte, ih]

theorem wfFrom_memPut {lo k : Nat} {m : List Host.Cell} (h : Memory.wfFrom lo m = true) (hlo : lo ≤ k)
    (hk : k < 3) (v : Byte) : Memory.wfFrom lo (memPut k v m) = true := by
  induction m generalizing lo with
  | nil => by_cases hv : v = 0#8 <;> simp [memPut, Memory.wfFrom, hv, hlo, hk]
  | cons c m ih =>
    obtain ⟨a, u⟩ := c
    have h' := h
    simp only [Memory.wfFrom, Bool.and_eq_true, decide_eq_true_eq] at h'
    obtain ⟨⟨⟨h1, h2⟩, h3⟩, h4⟩ := h'
    have weaken : ∀ {m : List Host.Cell} {i j : Nat}, i ≤ j → Memory.wfFrom j m = true →
        Memory.wfFrom i m = true := by
      intro m i j hij hm
      cases m with
      | nil => rfl
      | cons c m =>
        simp only [Memory.wfFrom, Bool.and_eq_true, decide_eq_true_eq] at hm ⊢
        exact ⟨⟨⟨by omega, hm.1.1.2⟩, hm.1.2⟩, hm.2⟩
    simp only [memPut]
    split
    · next hka =>
      by_cases hv : v = 0#8
      · simpa [hv] using h
      · simp only [hv, if_false, Memory.wfFrom, Bool.and_eq_true, decide_eq_true_eq]
        exact ⟨⟨⟨hlo, hk⟩, by simpa using hv⟩, ⟨⟨by omega, h2⟩, h3⟩, h4⟩
    · split
      · next hka =>
        subst hka
        by_cases hv : v = 0#8
        · simp only [hv, if_true]
          exact weaken (by omega) h4
        · simp only [hv, if_false, Memory.wfFrom, Bool.and_eq_true, decide_eq_true_eq]
          exact ⟨⟨⟨hlo, hk⟩, by simpa using hv⟩, h4⟩
      · simp only [Memory.wfFrom, Bool.and_eq_true, decide_eq_true_eq]
        exact ⟨⟨⟨h1, h2⟩, h3⟩, ih h4 (by omega)⟩

theorem SessionByte.addr_inj {a b : SessionByte} (h : a.addr = b.addr) : a = b := by
  cases a <;> cases b <;> first | rfl | simp [SessionByte.addr] at h

theorem SessionByte.addr_lt (b : SessionByte) : b.addr < 3 := by cases b <;> decide

theorem State.putByte_wf {s : State} (h : Memory.wf s.mem = true) (b : SessionByte) (v : Byte) :
    Memory.wf (s.putByte b v).mem = true := wfFrom_memPut h (Nat.zero_le _) b.addr_lt v

theorem State.putByte_byte_same {s : State} (h : Memory.wf s.mem = true) (b : SessionByte) (v : Byte) :
    (s.putByte b v).byte b = v := memByte_memPut_same h _ v

theorem State.putByte_byte_other (s : State) {a b : SessionByte} (hab : a ≠ b) (v : Byte) :
    (s.putByte b v).byte a = s.byte a :=
  memByte_memPut_other _ (fun e => hab (SessionByte.addr_inj e)) v

theorem State.setPhase_wf {s : State} (h : Memory.wf s.mem = true) (p : Phase) :
    Memory.wf (s.setPhase p).mem = true := State.putByte_wf h _ _

theorem State.setPw_wf {s : State} (h : Memory.wf s.mem = true) (v : Word) :
    Memory.wf (s.setPw v).mem = true := State.putByte_wf (State.putByte_wf h _ _) _ _

theorem State.setPhase_phase {s : State} (h : Memory.wf s.mem = true) (p : Phase) :
    (s.setPhase p).phase = p.code := State.putByte_byte_same h _ _

@[simp] theorem State.setPhase_pwLo (s : State) (p : Phase) : (s.setPhase p).byte .pwLo = s.byte .pwLo :=
  s.putByte_byte_other (by decide) _

@[simp] theorem State.setPhase_pwHi (s : State) (p : Phase) : (s.setPhase p).byte .pwHi = s.byte .pwHi :=
  s.putByte_byte_other (by decide) _

@[simp] theorem State.setPhase_pw (s : State) (p : Phase) : (s.setPhase p).pw = s.pw := by
  simp [State.pw]

@[simp] theorem State.setPw_phase (s : State) (v : Word) : (s.setPw v).phase = s.phase := by
  unfold State.setPw State.phase
  rw [State.putByte_byte_other _ (by decide), State.putByte_byte_other _ (by decide)]

theorem State.setPw_pwLo {s : State} (h : Memory.wf s.mem = true) (v : Word) :
    (s.setPw v).byte .pwLo = v.extractLsb' 0 8 := by
  unfold State.setPw
  rw [State.putByte_byte_other _ (by decide), State.putByte_byte_same h]

theorem State.setPw_pwHi {s : State} (h : Memory.wf s.mem = true) (v : Word) :
    (s.setPw v).byte .pwHi = v.extractLsb' 8 8 := State.putByte_byte_same (State.putByte_wf h _ _) _ _

theorem State.setPw_pw {s : State} (h : Memory.wf s.mem = true) (v : Word) : (s.setPw v).pw = v := by
  unfold State.pw
  rw [State.setPw_pwLo h, State.setPw_pwHi h]
  ext i hi
  simp only [BitVec.getElem_append, BitVec.getElem_extractLsb']
  split
  · simp [← BitVec.getLsbD_eq_getElem]
  · next h8 =>
    have : 8 + (i - 8) = i := by omega
    simp [this, ← BitVec.getLsbD_eq_getElem]

/-- A state's phase byte is a field of session memory. -/
theorem State.phase_eq_byte (s : State) : s.phase = s.byte .phase := rfl

end Sys2Proof.Machine
end

