-- ==== Sys2Proof/Laws/Ops.lean ====
section
/-! SUPPORT. Everything each shared operation can do, said once: the handler H_ECHO, foreign bodies, and
taking the capture interrupt. -/

namespace Sys2Proof.Machine

theorem State.onEdge_wfr {s : State} (h : s.phase = Phase.wfr.code) :
    s.onEdge = (s.clearCounter.setEdge .falling).setPhase .wff := by simp [State.onEdge, h]

theorem State.onEdge_wff {s : State} (h : s.phase = Phase.wff.code) :
    s.onEdge = ((s.setPw s.icr).setEdge .rising).setPhase .ready := by
  simp [State.onEdge, h, Phase.code]

theorem State.onEdge_ignored {s : State} (h1 : s.phase ≠ Phase.wfr.code) (h2 : s.phase ≠ Phase.wff.code) :
    s.onEdge = s := by simp [State.onEdge, h1, h2]

/-- One word of a body writes EDGE, TCNT, SLOT or nothing (R84). -/
theorem handlerWord_next {w : Byte} {s t : State} (h : handlerWord w s = .next t) :
    (∃ e, t = s.setEdge e) ∨ t = s ∨ t = s.clearCounter ∨ ∃ k, k ≠ 0#4 ∧ t = s.setSlot k := by
  unfold handlerWord at h
  split at h <;> first | (injection h; subst_vars) | (injection h)
  · exact .inl ⟨_, rfl⟩
  · exact .inr (.inl rfl)
  · exact .inr (.inr (.inl rfl))
  · next hd => exact .inr (.inr (.inr ⟨_, decode_icuRegister_ne hd, rfl⟩))

@[simp] theorem runBody_nil (s : State) : runBody [] s = .next s := rfl

theorem runBody_cons {w : Byte} {ws : List Byte} {s t : State} (h : handlerWord w s = .next t) :
    runBody (w :: ws) s = runBody ws t := by simp only [runBody, h]

/-- A foreign body writes nothing but TCNT, EDGE and SLOT (R84). -/
theorem runBody_next {ws : List Byte} {s t : State} (h : runBody ws s = .next t) :
    t = { s with tcnt := t.tcnt, edge := t.edge, slot := t.slot } := by
  induction ws generalizing s with
  | nil => injection h with h; subst h; rfl
  | cons w ws ih =>
    simp only [runBody] at h
    split at h <;> try (injection h)
    next u hu =>
      have := ih h
      obtain ⟨e, rfl⟩ | rfl | rfl | ⟨k, -, rfl⟩ := handlerWord_next hu <;> exact this

/-- A foreign body keeps a slot that is not empty so (R65, R84). -/
theorem runBody_slot {ws : List Byte} {s t : State} (h : runBody ws s = .next t) (hs : s.slot ≠ 0#4) :
    t.slot ≠ 0#4 := by
  induction ws generalizing s with
  | nil => injection h with h; subst h; exact hs
  | cons w ws ih =>
    simp only [runBody] at h
    split at h <;> try (injection h)
    next u hu =>
      obtain ⟨e, rfl⟩ | rfl | rfl | ⟨k, hk, rfl⟩ := handlerWord_next hu
      · exact ih h hs
      · exact ih h hs
      · exact ih h hs
      · exact ih h hk

/-- Taking the interrupt: nothing more with an empty slot, H_ECHO, or a foreign body (R82). -/
theorem takeInterrupt_next {s t : State} (h : takeInterrupt s = .next t) :
    (s.slot = 0#4 ∧ t = s.enterInterrupt) ∨
    (s.slot = Config.hEcho ∧ t = s.enterInterrupt.onEdge) ∨
    (s.slot ≠ 0#4 ∧ s.slot ≠ Config.hEcho ∧ runBody (foreignBody s.cfg s.slot) s.enterInterrupt = .next t) := by
  unfold takeInterrupt runHandler at h
  split at h
  · next h0 => injection h with h; exact .inl ⟨h0, h.symm⟩
  · next h0 =>
    split at h
    · next h1 => injection h with h; exact .inr (.inl ⟨h1, h.symm⟩)
    · next h1 => exact .inr (.inr ⟨h0, h1, h⟩)

theorem takeInterrupt_empty {s : State} (h : s.slot = 0#4) : takeInterrupt s = .next s.enterInterrupt := by
  simp [takeInterrupt, runHandler, h]

theorem takeInterrupt_echo {s : State} (h : s.slot = Config.hEcho) :
    takeInterrupt s = .next s.enterInterrupt.onEdge := by
  simp [takeInterrupt, runHandler, h, Config.hEcho]

theorem takeInterrupt_foreign {s : State} (h0 : s.slot ≠ 0#4) (h1 : s.slot ≠ Config.hEcho) :
    takeInterrupt s = runBody (foreignBody s.cfg s.slot) s.enterInterrupt := by
  unfold takeInterrupt runHandler
  rw [if_neg h0, if_neg h1, State.enterInterrupt_cfg]

@[simp] theorem evTick_clocked {s : State} (h : s.clocked = true) : evTick s = s.countUp := by
  simp [evTick, h]

@[simp] theorem evTick_stopped {s : State} (h : s.clocked = false) : evTick s = s := by
  simp [evTick, h]

theorem evEdge_recognized {s : State} {pol : Edge} (h : s.recognizes pol = true) :
    evEdge pol s = s.latch := by simp [evEdge, h]

theorem evEdge_ignored {s : State} {pol : Edge} (h : s.recognizes pol = false) : evEdge pol s = s := by
  simp [evEdge, h]

theorem State.ready_iff {s : State} : s.ready = true ↔ s.phase = Phase.ready.code := by
  simp [State.ready]

theorem State.busy_iff {s : State} : s.busy = false ↔ s.seq = .none := by simp [State.busy]

end Sys2Proof.Machine
end

