-- ==== Sys2Proof/Laws/PerInstr.lean ====
section
/-! SUPPORT. One lemma per command: its word matches its row of the opcode map (spec/30_encoding.md R66). -/

namespace Sys2Proof.Laws

/-- The mask of a command's row (R66). -/
def rowMask : Instr → Byte
  | .icuInit _ _ => 0xF0
  | .icuSetEdge _ => 0xF7
  | .icuGetCapture => 0xFF
  | .icuClearCounter => 0xFF
  | .icuRegister _ => 0xF0
  | .icuDeinit => 0xFF
  | .usInit => 0xFF
  | .usReadDistance => 0xFF

/-- The match of a command's row (R66). -/
def rowMatch : Instr → Byte
  | .icuInit _ _ => 0x10
  | .icuSetEdge _ => 0x20
  | .icuGetCapture => 0x30
  | .icuClearCounter => 0x40
  | .icuRegister _ => 0x50
  | .icuDeinit => 0x60
  | .usInit => 0x80
  | .usReadDistance => 0x90

/-- The word of a command selects its row. -/
def TableRow.Statement (i : Instr) : Prop := encode i &&& rowMask i = rowMatch i

theorem TableRow.icuInit (e : Edge) (p : Prescaler) : TableRow.Statement (.icuInit e p) := by
  cases e <;> cases p <;> unfold TableRow.Statement <;> decide

theorem TableRow.icuSetEdge (e : Edge) : TableRow.Statement (.icuSetEdge e) := by cases e <;> unfold TableRow.Statement <;> decide

theorem TableRow.icuGetCapture : TableRow.Statement .icuGetCapture := by
  unfold TableRow.Statement; decide

theorem TableRow.icuClearCounter : TableRow.Statement .icuClearCounter := by
  unfold TableRow.Statement; decide

theorem TableRow.icuRegister (h : HandlerId) : TableRow.Statement (.icuRegister h) := by
  revert h; unfold TableRow.Statement; decide

theorem TableRow.icuDeinit : TableRow.Statement .icuDeinit := by
  unfold TableRow.Statement; decide

theorem TableRow.usInit : TableRow.Statement .usInit := by
  unfold TableRow.Statement; decide

theorem TableRow.usReadDistance : TableRow.Statement .usReadDistance := by
  unfold TableRow.Statement; decide

end Sys2Proof.Laws
end

