-- ==== Sys2Proof/Laws/Step.lean ====
section
/-! SUPPORT. Everything one step can do, said once: `Effect t s u` lists every way a turn `t` leads from `s`
to a next state `u`. Invariants are proved by cases on it, not by unfolding the step. -/

namespace Sys2Proof.Machine

inductive Effect : Turn → State → State → Prop where
  | issueInit {w e p s} : decode w = .ok (.icuInit e p) → s.seq = .none → Effect (.issue w) s (s.initUnit e p)
  | issueSetEdge {w e s} : decode w = .ok (.icuSetEdge e) → s.seq = .none → Effect (.issue w) s (s.setEdge e)
  | issueGetCapture {w s} : decode w = .ok .icuGetCapture → s.seq = .none → Effect (.issue w) s (s.respond s.icr)
  | issueClearCounter {w s} : decode w = .ok .icuClearCounter → s.seq = .none → Effect (.issue w) s s.clearCounter
  | issueRegister {w h s} : decode w = .ok (.icuRegister h) → h ≠ 0#4 → s.seq = .none → Effect (.issue w) s (s.setSlot h)
  | issueDeinit {w s} : decode w = .ok .icuDeinit → s.seq = .none → Effect (.issue w) s s.deinitUnit
  | issueUsInit {w s} : decode w = .ok .usInit → s.seq = .none → Effect (.issue w) s (s.goto .ui1)
  | issueRead {w s} : decode w = .ok .usReadDistance → s.seq = .none → s.phase = Phase.idle.code →
      Effect (.issue w) s (s.goto .rd1)
  | mainIdle {s} : s.seq = .none → Effect .main s s
  | ui1 {s} : s.seq = .ui1 → Effect .main s (stepUI1 s)
  | ui2 {s} : s.seq = .ui2 → Effect .main s (stepUI2 s)
  | ui3 {s} : s.seq = .ui3 → Effect .main s (stepUI3 s)
  | rd1 {s} : s.seq = .rd1 → Effect .main s (stepRD1 s)
  | rd2 {s} : s.seq = .rd2 → Effect .main s (stepRD2 s)
  | rd3 {s} : s.seq = .rd3 → Effect .main s (stepRD3 s)
  | rd4 {s} : s.seq = .rd4 → Effect .main s (stepRD4 s)
  | rd5 {s} : s.seq = .rd5 → Effect .main s (stepRD5 s)
  | rd6Hold {s} : s.seq = .rd6 → s.phase ≠ Phase.ready.code → Effect .main s s
  | rd6Go {s} : s.seq = .rd6 → s.phase = Phase.ready.code → Effect .main s (s.goto .rd7)
  | rd7 {s} : s.seq = .rd7 → Effect .main s (stepRD7 s)
  | rd8 {s} : s.seq = .rd8 → Effect .main s (stepRD8 s)
  | rd9 {s} : s.seq = .rd9 → s.cfg.fCpuHz ≠ 0#32 →
      Effect .main s ((s.respond (convert s.rdtmp (divisor s.presc) s.cfg.fCpuHz s.cfg.calOffset)).goto .none)
  | irqIdle {s} : s.dispatchEnabled = false → Effect .irq s s
  | irqEmpty {s} : s.dispatchEnabled = true → s.slot = 0#4 → Effect .irq s s.enterInterrupt
  | irqRising {s} : s.dispatchEnabled = true → s.slot = Config.hEcho → s.phase = Phase.wfr.code →
      Effect .irq s ((s.enterInterrupt.clearCounter.setEdge .falling).setPhase .wff)
  | irqFalling {s} : s.dispatchEnabled = true → s.slot = Config.hEcho → s.phase = Phase.wff.code →
      Effect .irq s (((s.enterInterrupt.setPw s.icr).setEdge .rising).setPhase .ready)
  | irqIgnored {s} : s.dispatchEnabled = true → s.slot = Config.hEcho → s.phase ≠ Phase.wfr.code →
      s.phase ≠ Phase.wff.code → Effect .irq s s.enterInterrupt
  | irqForeign {s} (n : Word) (e : Edge) (h : HandlerId) : s.dispatchEnabled = true → s.slot ≠ 0#4 →
      s.slot ≠ Config.hEcho → h ≠ 0#4 →
      runBody (foreignBody s.cfg s.slot) s.enterInterrupt = .next { s.enterInterrupt with tcnt := n, edge := e, slot := h } →
      Effect .irq s { s.enterInterrupt with tcnt := n, edge := e, slot := h }
  | tick {s} : s.clocked = true → Effect .clk s s.countUp
  | tickIdle {s} : s.clocked = false → Effect .clk s s
  | latch {s pol} : s.recognizes pol = true → Effect (.echo pol) s s.latch
  | edgeIgnored {s pol} : s.recognizes pol = false → Effect (.echo pol) s s
  | gie {s} (b : Bool) : Effect (.gie b) s (s.setGie b)

theorem effect_of_issueWord {w : Byte} {s u : State} (h : issueWord w s = .next u) :
    Effect (.issue w) s u := by
  unfold issueWord at h
  split at h
  · injection h
  · next i hd =>
    split at h
    · injection h
    · next hb =>
      have hs : s.seq = .none := State.busy_iff.1 (by simpa using hb)
      cases i with
      | icuInit e p => injection h with h; subst h; exact .issueInit hd hs
      | icuSetEdge e => injection h with h; subst h; exact .issueSetEdge hd hs
      | icuGetCapture => injection h with h; subst h; exact .issueGetCapture hd hs
      | icuClearCounter => injection h with h; subst h; exact .issueClearCounter hd hs
      | icuRegister k =>
        have hk := decode_icuRegister_ne hd
        simp only [exec, execIcuRegister, if_neg hk] at h
        injection h with h; subst h; exact .issueRegister hd hk hs
      | icuDeinit => injection h with h; subst h; exact .issueDeinit hd hs
      | usInit =>
        simp only [exec, execUsInit, hb] at h
        injection h with h; subst h; exact .issueUsInit hd hs
      | usReadDistance =>
        simp only [exec, execUsReadDistance, hb] at h
        split at h
        · next hc => exact absurd hc (by decide)
        · split at h
          · next hp => injection h with h; subst h; exact .issueRead hd hs hp
          · injection h

theorem effect_of_microStep {s u : State} (h : microStep s = .next u) : Effect .main s u := by
  unfold microStep at h
  split at h
  · next hq => injection h with h; subst h; exact .mainIdle hq
  · next hq => injection h with h; subst h; exact .ui1 hq
  · next hq => injection h with h; subst h; exact .ui2 hq
  · next hq => injection h with h; subst h; exact .ui3 hq
  · next hq => injection h with h; subst h; exact .rd1 hq
  · next hq => injection h with h; subst h; exact .rd2 hq
  · next hq => injection h with h; subst h; exact .rd3 hq
  · next hq => injection h with h; subst h; exact .rd4 hq
  · next hq => injection h with h; subst h; exact .rd5 hq
  · next hq =>
    injection h with h; subst h
    unfold stepRD6
    split
    · next hr => exact .rd6Go hq (State.ready_iff.1 hr)
    · next hr => exact .rd6Hold hq (fun e => hr (State.ready_iff.2 e))
  · next hq => injection h with h; subst h; exact .rd7 hq
  · next hq => injection h with h; subst h; exact .rd8 hq
  · next hq =>
    unfold stepRD9 at h
    split at h
    · injection h
    · next hf => injection h with h; subst h; exact .rd9 hq hf

theorem effect_of_evDispatch {s u : State} (h : evDispatch s = .next u) : Effect .irq s u := by
  unfold evDispatch at h
  split at h
  · next hd =>
    obtain ⟨h0, rfl⟩ | ⟨h1, rfl⟩ | ⟨h0, h1, hr⟩ := takeInterrupt_next h
    · exact .irqEmpty hd h0
    · by_cases hw : s.phase = Phase.wfr.code
      · rw [State.onEdge_wfr (s := s.enterInterrupt) hw]; exact .irqRising hd h1 hw
      · by_cases hf : s.phase = Phase.wff.code
        · rw [State.onEdge_wff (s := s.enterInterrupt) hf]; exact .irqFalling hd h1 hf
        · rw [State.onEdge_ignored (s := s.enterInterrupt) hw hf]; exact .irqIgnored hd h1 hw hf
    · have hn := runBody_slot hr h0
      have he := runBody_next hr
      rw [he] at hr ⊢
      exact .irqForeign _ _ _ hd h0 h1 hn hr
  · next hd => injection h with h; subst h; exact .irqIdle (by simpa using hd)

theorem effect_of_runTurn {t : Turn} {s u : State} (h : runTurn t s = .next u) : Effect t s u := by
  cases t with
  | issue w => exact effect_of_issueWord h
  | main => exact effect_of_microStep h
  | irq => exact effect_of_evDispatch h
  | clk =>
    injection h with h; subst h
    cases hc : s.clocked
    · rw [evTick_stopped hc]; exact .tickIdle hc
    · rw [evTick_clocked hc]; exact .tick hc
  | echo pol =>
    injection h with h; subst h
    cases hc : s.recognizes pol
    · rw [evEdge_ignored hc]; exact .edgeIgnored hc
    · rw [evEdge_recognized hc]; exact .latch hc
  | gie b => injection h with h; subst h; exact .gie b

/-- What one step can do: take a turn off the schedule, then one effect of that turn. -/
theorem step_effect {s u : State} (h : step s = .next u) : Effect s.nextTurn s.dropTurn u :=
  effect_of_runTurn h

/-- A step whose next turn is listed runs that turn. -/
theorem step_of_turns {s : State} {t : Turn} {ts : List Turn} (h : s.turns = t :: ts) :
    step s = runTurn t (s.setTurns ts) := by
  simp [step, State.nextTurn_of_turns h, State.dropTurn_of_turns h]

theorem runFor_succ {n : Nat} {s u : State} (h : step s = .next u) : runFor (n + 1) s = runFor n u := by
  simp [runFor, h]

theorem runFor_one {s u : State} (h : step s = .next u) : runFor 1 s = .next u := runFor_succ h

/-- A run is the runs of its parts, one after the other. -/
theorem runFor_add {m n : Nat} {s u : State} (h : runFor m s = .next u) : runFor (m + n) s = runFor n u := by
  induction m generalizing s with
  | zero => injection h with h; rw [Nat.zero_add, h]
  | succ m ih =>
    rw [Nat.succ_add]
    simp only [runFor] at h ⊢
    split at h
    · next v hv => exact ih h
    · injection h
    · injection h

/-! ### The turns of a session -/

@[simp] theorem gieAfter_nil (g : Bool) : gieAfter g [] = g := rfl

@[simp] theorem gieAfter_cons (g : Bool) (t : Turn) (ts : List Turn) :
    gieAfter g (t :: ts) = gieAfter (gieStep g t) ts := rfl

@[simp] theorem gieAfter_append (g : Bool) (ts us : List Turn) :
    gieAfter g (ts ++ us) = gieAfter (gieAfter g ts) us := by simp [gieAfter]

/-- A latency turn is a quiet turn that is not a turn of IRQ. -/
theorem latencyTurn_iff {armed : Edge} {t : Turn} :
    latencyTurn armed t = true ↔ quietTurn armed t = true ∧ t ≠ .irq := by
  cases t <;> simp [latencyTurn, quietTurn]

/-- A quiet turn of another agent than MAIN writes at most TCNT and GIE, if no edge is pending or the turn is not
IRQ's (R82, R100, R102, R103). -/
theorem step_of_quietTurn {armed : Edge} {t : Turn} {ts : List Turn} {s : State} (ht : quietTurn armed t = true)
    (hm : t ≠ .main) (hf : s.icf = false ∨ t ≠ .irq) (he : s.edge = armed) (hc : s.clocked = true)
    (hs : s.turns = t :: ts) :
    step s = .next { s with tcnt := if t = .clk then s.tcnt + 1#16 else s.tcnt, gie := gieStep s.gie t,
                            turns := ts } := by
  rw [step_of_turns hs]
  cases t with
  | issue w => simp [quietTurn] at ht
  | main => exact absurd rfl hm
  | irq =>
    have hd : (s.setTurns ts).dispatchEnabled = false := by
      simp [State.dispatchEnabled, hf.resolve_right fun h => h rfl]
    simp only [runTurn, evDispatch, hd]; rfl
  | clk => simp only [runTurn, evTick_clocked (s := s.setTurns ts) hc]; rfl
  | echo pol =>
    have hr : (s.setTurns ts).recognizes pol = false := by
      simp [quietTurn] at ht; simp [State.recognizes, he, ht]
    simp only [runTurn, evEdge_ignored hr]; rfl
  | gie b => rfl

end Sys2Proof.Machine
end

