-- ==== Sys2Proof/Tests/Slice0.lean ====
section
/-! SUPPORT. Tests: decoding against words written out from spec/30_encoding.md, one-step tests whose expected
results are the vectors of spec/95_test_vectors.md, and for each obligation with hypotheses a state that meets
them. -/

namespace Sys2Proof.Tests

open Sys2Proof Sys2Proof.Machine

/-! ### States -/

/-- The outcome is a next state with the property. -/
def nextWith (o : Host.Outcome State Fault Refusal) (p : State → Bool) : Bool :=
  match o with
  | .next t => p t
  | .fault _ => false
  | .refused _ => false

/-- The outcome is this refusal. -/
def refusedAs (o : Host.Outcome State Fault Refusal) (r : Refusal) : Bool :=
  match o with
  | .next _ => false
  | .fault _ => false
  | .refused q => decide (q = r)

/-- The parameters of the source's scenario (L1-6), with bodies for handlers 2, 3 and 4. -/
def scenario : Params :=
  { fCpuHz := 1000000, presc := .div8, calOffset := -1, trigHoldMs := 10, foreign := [[0x40, 0x20], [0x60]] }

/-- Reset with those parameters. -/
def fresh : State := { State.reset with cfg := scenario }

/-- The end of V-ER13: the block wired by US_INIT; GIE = 1. -/
def wired : State :=
  { fresh with presc := .div8, edge := .rising, icie := true, slot := 1, trigDir := .output, gie := true }

/-- MAIN at RD6, waiting for the rising edge. -/
def waitRise : State := { wired with seq := .rd6, mem := [(0, 1)] }

/-- MAIN at RD6, waiting for the falling edge. -/
def waitFall : State := { wired with seq := .rd6, mem := [(0, 2)], edge := .falling }

/-- MAIN at RD6 with the measurement ready, PW = 200. -/
def measured : State := { wired with seq := .rd6, mem := [(0, 3), (1, 200)] }

/-! ### Well-formedness and decoding -/

/-- The one ill-formed command, ICU_REGISTER with h = 0 (R65). -/
theorem test_wf_register_zero : (Instr.icuRegister 0).wf = false := by decide

/-- Every other identifier is well formed, at both ends of the range (R65). -/
theorem test_wf_register : (Instr.icuRegister 1).wf = true ∧ (Instr.icuRegister 15).wf = true := by decide

/-- V-EN1, V-EN9, V-EN12. -/
theorem test_decode_init :
    decode 0b00010000 = .ok (.icuInit .falling .off) ∧ decode 0b00011010 = .ok (.icuInit .rising .div8) ∧
    decode 0b00011101 = .ok (.icuInit .rising .div1024) := by decide

/-- V-EN2 to V-EN5: the other prescaler codes. -/
theorem test_decode_prescalers :
    decode 0b00010001 = .ok (.icuInit .falling .div1) ∧ decode 0b00010010 = .ok (.icuInit .falling .div8) ∧
    decode 0b00010011 = .ok (.icuInit .falling .div64) ∧ decode 0b00010100 = .ok (.icuInit .falling .div256) := by
  decide

/-- V-EN13, V-EN14. -/
theorem test_decode_set_edge :
    decode 0b00100000 = .ok (.icuSetEdge .falling) ∧ decode 0b00101000 = .ok (.icuSetEdge .rising) := by decide

/-- V-EN15, V-EN16, V-EN32. -/
theorem test_decode_unit :
    decode 0b00110000 = .ok .icuGetCapture ∧ decode 0b01000000 = .ok .icuClearCounter ∧
    decode 0b01100000 = .ok .icuDeinit := by decide

/-- V-EN17, V-EN18, V-EN31. -/
theorem test_decode_register :
    decode 0b01010001 = .ok (.icuRegister 1) ∧ decode 0b01010010 = .ok (.icuRegister 2) ∧
    decode 0b01011111 = .ok (.icuRegister 15) := by decide

/-- V-EN33, V-EN34. -/
theorem test_decode_ranging :
    decode 0b10000000 = .ok .usInit ∧ decode 0b10010000 = .ok .usReadDistance := by decide

/-- V-EN40, V-EN50, V-EN53, V-EN54: no command has the opcode. -/
theorem test_reserved_opcode :
    decode 0x00 = .error .unassignedOpcode ∧ decode 0x70 = .error .unassignedOpcode ∧
    decode 0xA0 = .error .unassignedOpcode ∧ decode 0xFF = .error .unassignedOpcode := by decide

/-- V-EN41, V-EN42: prescaler codes 6 and 7. -/
theorem test_reserved_prescaler :
    decode 0x16 = .error .prescalerCode ∧ decode 0x1F = .error .prescalerCode := by decide

/-- V-EN43 to V-EN47, V-EN49, V-EN51, V-EN52: a nonzero unused bit. -/
theorem test_reserved_bits :
    ∀ w ∈ ([0x21, 0x2F, 0x31, 0x38, 0x48, 0x61, 0x81, 0x98] : List Byte), decode w = .error .unusedBits := by
  decide

/-- V-EN48: ICU_REGISTER with h = 0. -/
theorem test_reserved_no_handler : decode 0x50 = .error .noHandler := by decide

/-- The worked encodings of R71. -/
theorem test_encode :
    encode (.icuInit .rising .div8) = 0x1A ∧ encode (.icuSetEdge .rising) = 0x28 ∧
    encode (.icuRegister 15) = 0x5F := by decide

/-- Of the 256 words exactly 34 are legal (R67). -/
theorem test_legal_words :
    ((List.range 256).filter fun n => (decodeTableWord 8 n).isSome).length = 34 := by decide

/-! ### One step of each command -/

/-- V-CU2: every field written, and SLOT, PHASE and PW kept. -/
theorem test_icu_init :
    nextWith (exec (.icuInit .falling .div1024)
      { fresh with tcnt := 0x1234, icr := 0x00C8, presc := .div64, edge := .rising, icf := true, slot := 2,
                   mem := [(0, 2), (1, 7)] })
      (fun t => decide (t.presc = .div1024 ∧ t.edge = .falling ∧ t.tcnt = 0 ∧ t.icr = 0 ∧ t.icf = false ∧
        t.icie = true ∧ t.slot = 2 ∧ t.phase = 2 ∧ t.pw = 7)) = true := by decide

/-- V-CU3: armed with no clock, a tick and either edge change nothing. -/
theorem test_icu_init_off :
    nextWith (exec (.icuInit .rising .off) wired)
      (fun t => decide (evTick t = t ∧ evEdge .rising t = t ∧ evEdge .falling t = t)) = true := by decide

/-- V-CU4: a pending edge stays pending under the new polarity. -/
theorem test_icu_set_edge :
    nextWith (exec (.icuSetEdge .falling) { wired with icf := true, icr := 9 })
      (fun t => decide (t.edge = .falling ∧ t.icf = true ∧ t.icr = 9)) = true := by decide

/-- V-CU6. -/
theorem test_icu_get_capture :
    nextWith (exec .icuGetCapture { wired with icf := true, icr := 0x00C8 })
      (fun t => decide (t.resp = [200] ∧ t.icr = 200 ∧ t.icf = true)) = true := by decide

/-- V-CU8. -/
theorem test_icu_clear_counter :
    nextWith (exec .icuClearCounter { wired with tcnt := 0x1234, icr := 0x0100, icf := true })
      (fun t => decide (t.tcnt = 0 ∧ t.icr = 0x0100 ∧ t.icf = true)) = true := by decide

/-- V-CR2: the pending flag stays. -/
theorem test_icu_register :
    nextWith (exec (.icuRegister 3) { wired with slot := 2, icf := true })
      (fun t => decide (t.slot = 3 ∧ t.icf = true)) = true := by decide

/-- V-CU9. -/
theorem test_icu_deinit :
    nextWith (exec .icuDeinit { wired with icf := true, tcnt := 50, edge := .falling })
      (fun t => decide (t.icie = false ∧ t.slot = 0 ∧ t.icf = true ∧ t.presc = .div8 ∧ t.tcnt = 50 ∧
        t.edge = .falling)) = true := by decide

/-- V-ER10. -/
theorem test_us_init : nextWith (exec .usInit fresh) (fun t => decide (t.seq = .ui1)) = true := by decide

/-- V-ER11 to V-ER13, from the states the vectors before them leave. -/
theorem test_us_init_steps :
    nextWith (microStep { fresh with seq := .ui1, tcnt := 5 })
      (fun t => decide (t = { fresh with presc := .div8, edge := .rising, icie := true, seq := .ui2 })) = true ∧
    nextWith (microStep { fresh with seq := .ui2 })
      (fun t => decide (t.slot = 1 ∧ t.seq = .ui3)) = true ∧
    nextWith (microStep { fresh with seq := .ui3 })
      (fun t => decide (t.trigDir = .output ∧ t.trigPin = some false ∧ t.seq = .none)) = true := by decide

/-- V-ER20. -/
theorem test_us_read_distance :
    nextWith (exec .usReadDistance wired) (fun t => decide (t.seq = .rd1)) = true := by decide

/-- V-ER32, V-ER33. -/
theorem test_us_read_distance_reentrant :
    refusedAs (exec .usReadDistance waitRise) .reentrantRead = true ∧
    refusedAs (exec .usReadDistance { wired with mem := [(0, 2)] }) .reentrantRead = true := by decide

/-! ### The micro-steps of a session -/

/-- V-ER21 to V-ER23. -/
theorem test_trigger_steps :
    nextWith (microStep { wired with seq := .rd1 }) (fun t => decide (t.trig = true ∧ t.seq = .rd2)) = true ∧
    nextWith (microStep { wired with seq := .rd2, trig := true })
      (fun t => decide (t.trig = true ∧ t.seq = .rd3)) = true ∧
    nextWith (microStep { wired with seq := .rd3, trig := true })
      (fun t => decide (t.trig = false ∧ t.seq = .rd4)) = true := by decide

/-- V-ER24, V-ER25. -/
theorem test_open_and_arm :
    nextWith (microStep { wired with seq := .rd4 })
      (fun t => decide (t.mem = [(0, 1)] ∧ t.seq = .rd5)) = true ∧
    nextWith (microStep { wired with seq := .rd5, edge := .falling })
      (fun t => decide (t.edge = .rising ∧ t.seq = .rd6)) = true := by decide

/-- V-ER26, V-ER27. -/
theorem test_wait :
    nextWith (microStep waitRise) (fun t => decide (t = waitRise)) = true ∧
    nextWith (microStep waitFall) (fun t => decide (t = waitFall)) = true ∧
    nextWith (microStep measured) (fun t => decide (t.seq = .rd7)) = true := by decide

/-- V-ER28, V-ER29. -/
theorem test_read_and_close :
    nextWith (microStep { measured with seq := .rd7 }) (fun t => decide (t.rdtmp = 200 ∧ t.seq = .rd8)) = true ∧
    nextWith (microStep { measured with seq := .rd8 })
      (fun t => decide (t.phase = 0 ∧ t.pw = 200 ∧ t.seq = .rd9)) = true := by decide

/-- V-ER30, and V-DC48: F_CPU_HZ = 0. -/
theorem test_respond :
    nextWith (microStep { wired with seq := .rd9, rdtmp := 200 })
      (fun t => decide (t.resp = [28] ∧ t.seq = .none)) = true ∧
    refusedAs (microStep { wired with seq := .rd9, cfg := { scenario with fCpuHz := 0 } }) .badConfig = true := by decide

/-- V-ER34: the divisor is that of PRESC, not of CFG_PRESC. -/
theorem test_respond_current_prescaler :
    nextWith (microStep { wired with seq := .rd9, rdtmp := 200, presc := .div64,
                                     cfg := { scenario with calOffset := 0 } })
      (fun t => decide (t.resp = [219])) = true := by decide

/-! ### Events -/

/-- V-CU21, V-CU23, V-CU24. -/
theorem test_tick :
    (evTick { wired with tcnt := 0xFFFF }).tcnt = 0 ∧ evTick fresh = fresh ∧
    (evTick { wired with tcnt := 7, icie := false, slot := 0 }).tcnt = 8 := by decide

/-- V-CU26, V-CU27, V-CU28. -/
theorem test_edge :
    evEdge .rising waitFall = waitFall ∧
    (evEdge .rising { wired with tcnt := 300, icf := true, icr := 100 }).icr = 300 ∧
    evEdge .rising { wired with presc := .off } = { wired with presc := .off } := by decide

/-- V-CU29: the latch is independent of ICIE and GIE. -/
theorem test_edge_masked :
    (evEdge .rising { wired with tcnt := 5, icie := false, gie := false }).icr = 5 ∧
    (evEdge .rising { wired with tcnt := 5, icie := false, gie := false }).icf = true := by decide

/-- V-CU31, V-CU32. -/
theorem test_gie :
    evGie false wired = { wired with gie := false } ∧
    turnEnabled .irq (evGie true { wired with gie := false, icf := true }) = true := by decide

/-- V-IR1 to V-IR5. -/
theorem test_gating :
    turnEnabled .irq { wired with icf := true } = true ∧
    turnEnabled .irq { wired with icf := true, gie := false } = false ∧
    turnEnabled .irq { wired with icf := true, icie := false } = false ∧
    turnEnabled .irq wired = false := by decide

/-- V-CR5. -/
theorem test_dispatch_empty_slot :
    nextWith (evDispatch { wired with icf := true, slot := 0 })
      (fun t => decide (t.icf = false ∧ t.ilog = [])) = true := by decide

/-- V-CR6 and V-CR10: an empty body, and a body of two words. -/
theorem test_dispatch_foreign :
    nextWith (evDispatch { wired with icf := true, slot := 4, ilog := [1] })
      (fun t => decide (t.icf = false ∧ t.ilog = [1, 4])) = true ∧
    nextWith (evDispatch { wired with icf := true, slot := 2, tcnt := 100 })
      (fun t => decide (t.icf = false ∧ t.ilog = [2] ∧ t.tcnt = 0 ∧ t.edge = .falling)) = true := by decide

/-- V-CR11, V-CR15: the capture a body reads is not a response; a handler registered by a body is not run. -/
theorem test_dispatch_foreign_register :
    nextWith (evDispatch { wired with icf := true, icr := 5, slot := 2,
                                      cfg := { scenario with foreign := [[0x30, 0x51]] } })
      (fun t => decide (t.ilog = [2] ∧ t.slot = 1 ∧ t.resp = [])) = true ∧
    nextWith (evDispatch { wired with icf := true, slot := 2, cfg := { scenario with foreign := [[0x53], [0x60]] } })
      (fun t => decide (t.ilog = [2] ∧ t.slot = 3)) = true := by decide

/-- V-CR12, V-CR13, V-CR14. -/
theorem test_dispatch_bad_body :
    ∀ ws ∈ ([[0x60], [0x90], [0x28, 0x16]] : List (List Byte)),
      refusedAs (evDispatch { wired with icf := true, slot := 2, cfg := { scenario with foreign := [ws] } })
        .badHandlerBody = true := by decide

/-- V-ER1. -/
theorem test_echo_rising :
    nextWith (evDispatch { waitRise with icf := true, tcnt := 37, icr := 37, mem := [(0, 1), (1, 0x23), (2, 1)] })
      (fun t => decide (t.icf = false ∧ t.ilog = [1] ∧ t.tcnt = 0 ∧ t.edge = .falling ∧ t.phase = 2 ∧
        t.icr = 37 ∧ t.pw = 0x0123)) = true := by decide

/-- V-ER2 and V-ER5: the pulse width is the latch, both bytes of it. -/
theorem test_echo_falling :
    nextWith (evDispatch { waitFall with icf := true, tcnt := 205, icr := 200,
                                         mem := [(0, 2), (1, 0x23), (2, 1)] })
      (fun t => decide (t.icf = false ∧ t.ilog = [1] ∧ t.pw = 200 ∧ t.edge = .rising ∧ t.phase = 3 ∧
        t.tcnt = 205 ∧ t.icr = 200)) = true ∧
    nextWith (evDispatch { waitFall with icf := true, tcnt := 3, icr := 0xFFFF })
      (fun t => decide (t.pw = 0xFFFF ∧ t.phase = 3)) = true := by decide

/-- V-ER4 and V-ER31. -/
theorem test_echo_ignored :
    nextWith (evDispatch { measured with icf := true, tcnt := 400, icr := 390 })
      (fun t => decide (t = { measured with tcnt := 400, icr := 390, ilog := [1] })) = true ∧
    nextWith (evDispatch { wired with icf := true, seq := .rd2, trig := true })
      (fun t => decide (t = { wired with seq := .rd2, trig := true, ilog := [1] })) = true := by decide

/-! ### Distance conversion -/

/-- V-DC1 to V-DC4, V-DC7: the clamp around the raw distance 27. -/
theorem test_convert_clamp :
    convert 200 8 1000000 (-1) = 28 ∧ convert 200 8 1000000 0 = 27 ∧ convert 200 8 1000000 27 = 27 ∧
    convert 200 8 1000000 26 = 1 ∧ convert 200 8 1000000 0x8000 = 32795 := by decide

/-- V-DC11, V-DC12, V-DC40, V-DC41: the one truncation. -/
theorem test_convert_truncates :
    convert 7 8 1000000 0 = 0 ∧ convert 8 8 1000000 0 = 1 ∧ convert 1 1 17150 0 = 1 ∧
    convert 1 1 17151 0 = 0 := by decide

/-- V-DC42, V-DC45, V-DC46, V-DC51: both saturations. -/
theorem test_convert_saturates :
    convert 65535 64 1000000 32767 = 32768 ∧ convert 3731 1024 1000000 0 = 65522 ∧
    convert 3732 1024 1000000 0 = 65535 ∧ convert 65535 1024 1000000 0x8000 = 65535 := by decide

/-- V-DC31, V-DC32, V-DC39: no clock, and the largest frequency. -/
theorem test_convert_ends :
    convert 200 0 1000000 (-4) = 4 ∧ convert 200 0 1000000 4 = 0 ∧ convert 65535 1024 4294967295 0 = 267 := by
  decide

/-! ### Witnesses: states that meet the hypotheses of the obligations -/

/-- V-RS5, and the word of a row runs next from reset. -/
theorem test_reset_runs_table_word :
    decodeTableWord 8 0x30 = some .icuGetCapture ∧
    nextWith (step (State.reset.withFetchWord 8 0x30)) (fun t => decide (t.resp = [0])) = true := by decide

/-- DecodeOfEncodeIsTheCommand, at both ends of the operand of ICU_REGISTER, and DecodedWordIsItsEncoding. -/
theorem witness_encoding :
    (Instr.icuRegister 15).wf = true ∧ (Instr.icuInit .rising .div1024).wf = true ∧
    decode 0x5F = .ok (.icuRegister 15) ∧ decode 0x51 = .ok (.icuRegister 1) := by decide

/-- ReservedWordsAreRefused. -/
theorem witness_reserved :
    decode 0x50 = .error .noHandler ∧ ({ wired with turns := [.issue 0x50] } : State).turns = .issue 0x50 :: [] := by
  decide

/-- StepRunsThePresentedCommand, StepTakesTheNextTurn, and AcceptedCommandsComplete with its invariant. -/
theorem witness_presented :
    SessionInv { wired with turns := [.issue 0x90] } ∧
    ({ wired with turns := [.issue 0x90] } : State).turns = .issue 0x90 :: [] ∧
    ({ wired with turns := [.issue 0x90] } : State).seq = .none ∧ decode 0x90 = .ok .usReadDistance ∧
    ({ wired with turns := [] } : State).turns = [] := ⟨⟨rfl, rfl⟩, rfl, rfl, rfl, rfl⟩

/-- PresentedTableWordRunsNext. -/
theorem witness_table_word : decodeTableWord 8 0x1A = some (.icuInit .rising .div8) := by decide

/-- DisabledAgentsChangeNothing: each of the three agents that can be without a step. -/
theorem witness_disabled :
    turnEnabled .clk fresh = false ∧ turnEnabled .irq wired = false ∧ turnEnabled .main waitFall = false ∧
    turnEnabled .main wired = false := by decide

/-- BusyBlockAcceptsNoCommand, both clauses. -/
theorem witness_busy :
    ({ waitRise with turns := [.issue 0x90] } : State).turns = .issue 0x90 :: [] ∧
    ({ waitRise with turns := [.issue 0x30] } : State).turns = .issue 0x30 :: [] ∧
    waitRise.seq ≠ .none ∧ decode 0x90 = .ok .usReadDistance ∧ decode 0x30 = .ok .icuGetCapture := by decide

/-- RefusalsAreTheSpecsOwn: each of the five refusals is reached by a step. -/
theorem witness_refused :
    refusedAs (step { wired with turns := [.issue 0x50] }) .reservedWord = true ∧
    refusedAs (step { waitRise with turns := [.issue 0x90] }) .reentrantRead = true ∧
    refusedAs (step { waitRise with turns := [.issue 0x60] }) .notAccepted = true ∧
    refusedAs (step { wired with slot := 3, icf := true, turns := [.irq] }) .badHandlerBody = true ∧
    refusedAs (step { wired with seq := .rd9, cfg := { scenario with fCpuHz := 0 }, turns := [.main] }) .badConfig = true := by
  decide

/-- StepKeepsSessionInvariant, StepKeepsPendingClocked, StepKeepsTriggerHold, StepKeepsTheParameters and
PhaseMovesOnlyAlongTheCycle: the falling edge's dispatch, and a step of the trigger. -/
theorem witness_invariants :
    (SessionInv { waitFall with icf := true, icr := 9, turns := [.irq] } ∧
      PendingIsClocked { waitFall with icf := true, icr := 9, turns := [.irq] } ∧
      ∃ u, step { waitFall with icf := true, icr := 9, turns := [.irq] } = .next u ∧ u.phase = Phase.ready.code) ∧
    (TriggerFits { wired with seq := .rd1, turns := [.main] } ∧
      ∃ u, step { wired with seq := .rd1, turns := [.main] } = .next u ∧ u.trig = true) :=
  ⟨⟨⟨rfl, .inr (.inl rfl)⟩, fun _ => rfl, _, rfl, rfl⟩, ⟨by unfold TriggerFits; decide, _, rfl, rfl⟩⟩

/-- OnlyTheFallingBranchWritesPw: PW changes. -/
theorem witness_pw_written :
    Memory.wf waitFall.mem = true ∧
    ∃ u, step { waitFall with icf := true, icr := 0x1234, turns := [.irq] } = .next u ∧ u.pw = 0x1234 :=
  ⟨rfl, _, rfl, rfl⟩

/-- PendingFlagHasTheListedWriters: ICF set by an edge, cleared by a dispatch, by UI1 and by a word. -/
theorem witness_pending_writers :
    nextWith (step { wired with turns := [.echo .rising] }) (fun u => u.icf) = true ∧
    nextWith (step { wired with icf := true, turns := [.irq] }) (fun u => !u.icf) = true ∧
    nextWith (step { wired with icf := true, seq := .ui1, turns := [.main] }) (fun u => !u.icf) = true ∧
    nextWith (step { wired with icf := true, turns := [.issue 0x1A] }) (fun u => !u.icf) = true := by decide

/-- ControlRegistersHaveTheListedWriters: each of its five changes happens. -/
theorem witness_control_writers :
    nextWith (step { wired with turns := [.issue 0x1D] }) (fun u => decide (u.presc = .div1024)) = true ∧
    nextWith (step { fresh with seq := .ui1, turns := [.main] })
      (fun u => decide (u.presc = .div8) && u.icie) = true ∧
    nextWith (step { wired with turns := [.issue 0x60] }) (fun u => !u.icie) = true ∧
    nextWith (step { fresh with seq := .ui3, turns := [.main] }) (fun u => decide (u.trigDir = .output)) = true ∧
    nextWith (step { wired with turns := [.gie false] }) (fun u => !u.gie) = true := by decide

/-- IcuInitArmsTheUnit, IcuSetEdgeWritesThePolarity, IcuClearCounterZeroesTheCounter, TickCountsModuloTheWidth:
the prescaler off and not, the polarity already armed. -/
theorem witness_unit :
    Prescaler.off = .off ∧ fresh.presc = .off ∧ wired.presc ≠ .off ∧ wired.edge = .rising := by decide

/-- IcuRegisterReplacesTheHandler: every premise, on one state. -/
theorem witness_register :
    (4 : HandlerId) ≠ 0 ∧ ({ wired with slot := 4 } : State).slot = 4 ∧ decode 0x54 = .ok (.icuRegister 4) ∧
    nextWith (takeInterrupt { wired with slot := 4, icf := true }) (fun u => decide (u.ilog = [4])) = true := by
  decide

/-- IcuDeinitDisablesNotification: an edge is recognized, the unit is clocked. -/
theorem witness_deinit : wired.recognizes .rising = true ∧ wired.clocked = true := by decide

/-- CommandsDoNotReadGie. -/
theorem witness_gie : fresh.gie = false ∧ Turn.clk ≠ .irq := by decide

/-- RecognizedEdgeLatches: a recognized edge, the other polarity, and no clock. -/
theorem witness_edges :
    (wired.presc ≠ .off ∧ Edge.rising = wired.edge) ∧ ¬ (wired.presc ≠ .off ∧ Edge.falling = wired.edge) ∧
    ¬ (fresh.presc ≠ .off ∧ Edge.falling = fresh.edge) := by decide

/-- TickAndEdgeInEitherOrder: both orders. -/
theorem witness_either_order :
    ({ wired with turns := [.echo .rising, .clk] } : State).turns = .echo wired.edge :: .clk :: [] ∧
    ({ wired with turns := [.clk, .echo .rising] } : State).turns = .clk :: .echo wired.edge :: [] ∧
    wired.presc ≠ .off := by decide

/-- DispatchNeedsAllThreeEnables: enabled, with an empty slot, and not enabled. -/
theorem witness_dispatch :
    (({ wired with icf := true, slot := 0 } : State).icf = true ∧ wired.icie = true ∧ wired.gie = true) ∧
    ¬ (wired.icf = true ∧ wired.icie = true ∧ wired.gie = true) ∧
    ({ wired with icf := true, slot := 0 } : State).slot = 0 := by decide

/-- InterruptSavesAndRestoresNothing: a dispatch completes, and the next edge is recognized after it. -/
theorem witness_interrupt :
    ({ waitRise with icf := true } : State).dispatchEnabled = true ∧
    nextWith (takeInterrupt { waitRise with icf := true }) (fun t => t.recognizes .falling) = true := by decide

/-- EchoHandlerBranches and EchoHandlerIsANoOpOutsideTheWait: each of the four phases. -/
theorem witness_echo :
    (waitRise.slot = Config.hEcho ∧ Memory.wf waitRise.mem = true ∧ waitRise.phase = Phase.wfr.code) ∧
    (waitFall.slot = Config.hEcho ∧ Memory.wf waitFall.mem = true ∧ waitFall.phase = Phase.wff.code) ∧
    (measured.slot = Config.hEcho ∧ Memory.wf measured.mem = true ∧ measured.phase = Phase.ready.code) ∧
    (wired.slot = Config.hEcho ∧ Memory.wf wired.mem = true ∧ wired.phase = Phase.idle.code) := by decide

/-- EchoHandlerBranches: a command that completes. -/
theorem witness_command_completes : ∃ t, exec .icuGetCapture measured = .next t ∧ t.pw = 200 := ⟨_, rfl, rfl⟩

/-- ForeignBodyRunsAllowedWordsOnly: a body of allowed words, a body with another word, a word that runs. -/
theorem witness_foreign :
    ((2 : HandlerId) ≠ 0 ∧ (2 : HandlerId) ≠ Config.hEcho ∧
      (foreignBody scenario 2).all allowedInBody = true ∧ (foreignBody scenario 2).length = 2) ∧
    ((0x60 : Byte) ∈ foreignBody scenario 3 ∧ allowedInBody 0x60 = false) ∧
    (foreignBody scenario 15 = []) ∧ allowedInBody 0x30 = true ∧
    nextWith (handlerWord 0x40 wired) (fun t => decide (t = wired.clearCounter)) = true := by decide

/-- DispatchLogsTheHandlerInTheSlot: a dispatch that logs. -/
theorem witness_logged :
    nextWith (step { wired with slot := 4, icf := true, turns := [.irq] }) (fun u => decide (u.ilog = [4])) = true := by
  decide

/-- ReplacedHandlerIsNeverInvoked: a pending edge is dispatched to the new handler, handler 2 replaced (P2). -/
theorem witness_replaced :
    ∃ t, ReachesVia (fun u => u.slot ≠ 2) { wired with slot := 4, icf := true, turns := [.irq] } t ∧ t.ilog = [4] :=
  ⟨_, .tail (.refl _) (by decide) rfl, rfl⟩

/-- CriticalSectionHasNoDispatch: a dispatch turn while GIE = 0. -/
theorem witness_critical_section :
    Memory.wf waitRise.mem = true ∧ ({ waitRise with gie := false } : State).gie = false ∧
    ∃ t, ReachesVia (fun u => u.nextTurn ≠ .gie true)
      { waitRise with gie := false, icf := true, turns := [.irq] } t ∧ t.turns = [] :=
  ⟨rfl, rfl, _, .tail (.refl _) (by decide) rfl, rfl⟩

/-- UsInitIsIssued and UsReadDistanceIsIssued: accepted, busy, and a session in progress. -/
theorem witness_issue :
    fresh.seq = .none ∧ wired.seq = .none ∧ wired.phase = Phase.idle.code ∧ waitRise.seq ≠ .none ∧
    ({ measured with seq := .none } : State).phase ≠ Phase.idle.code := by decide

/-- UsInitWiresTheBlock, each clause; UI2 from V-ER14's state, an edge taken with the slot still empty. -/
theorem witness_us_init :
    ({ fresh with seq := .ui1 } : State).seq = .ui1 ∧
    ({ wired with seq := .ui2, slot := 0, trigDir := .input } : State).seq = .ui2 ∧
    ({ fresh with seq := .ui3 } : State).seq = .ui3 ∧
    ({ fresh with turns := [.issue 0x80, .main, .main, .main] } : State).turns =
      .issue 0x80 :: .main :: .main :: .main :: [] ∧ fresh.seq = .none := by decide

/-- TriggerPulse: with the pin an output, and with the pin still an input. -/
theorem witness_trigger :
    (({ wired with seq := .rd1 } : State).seq = .rd1 ∧ wired.trigDir = .output) ∧
    (({ fresh with seq := .rd1 } : State).seq = .rd1 ∧ fresh.trigDir = .input) := by decide

/-- SessionIsOpened, AccumulatorIsRead and DistanceIsResponded, the latter with both values of its clauses. -/
theorem witness_steps :
    (Memory.wf wired.mem = true ∧ ({ wired with seq := .rd4 } : State).seq = .rd4) ∧
    ({ measured with seq := .rd7 } : State).seq = .rd7 ∧
    (({ wired with seq := .rd9 } : State).seq = .rd9 ∧ wired.cfg.fCpuHz ≠ 0 ∧
      ({ scenario with fCpuHz := 0 } : Params).fCpuHz = 0) := by decide

/-- SessionIsArmed: the edge left pending from before the session. -/
theorem witness_armed :
    let s : State := { waitRise with seq := .rd5, icf := true }
    Memory.wf s.mem = true ∧ s.seq = .rd5 ∧ s.slot = Config.hEcho ∧ s.phase = Phase.wfr.code ∧ s.icf = true ∧
      s.icie = true ∧ s.gie = true := by decide

/-- WaitHoldsUntilReady: ready, not ready, the step that makes it ready, and a run that holds. -/
theorem witness_wait :
    (measured.seq = .rd6 ∧ measured.phase = Phase.ready.code) ∧
    (waitRise.seq = .rd6 ∧ waitRise.phase ≠ Phase.ready.code) ∧
    (Memory.wf waitFall.mem = true ∧ waitFall.phase ≠ Phase.ready.code ∧
      ∃ u, step { waitFall with icf := true, turns := [.irq] } = .next u ∧ u.phase = Phase.ready.code) ∧
    ∃ t, ReachesVia (fun u => u.phase ≠ Phase.ready.code) { waitRise with turns := [.clk] } t ∧ t.tcnt = 1 :=
  ⟨⟨rfl, rfl⟩, ⟨rfl, by decide⟩, ⟨rfl, by decide, _, rfl, rfl⟩, _, .tail (.refl _) (by decide) rfl, rfl⟩

/-- WaitHasNoTimeout: each of the five causes, with a step taken. -/
theorem witness_no_timeout :
    (Memory.wf waitRise.mem = true ∧ waitRise.seq = .rd6 ∧ waitRise.phase ≠ Phase.ready.code) ∧
    (waitRise.icf = false ∧ ∃ t, ReachesVia (fun u => u.nextTurn ≠ .echo waitRise.edge)
      { waitRise with turns := [.clk] } t ∧ t.tcnt = 1) ∧
    (∃ t, ReachesVia (fun u => u.gie = false) { waitRise with gie := false, turns := [.clk] } t ∧ t.tcnt = 1) ∧
    (∃ t, ReachesVia (fun _ => True) { waitRise with icie := false, turns := [.clk] } t ∧ t.tcnt = 1) ∧
    (∃ t, ReachesVia (fun _ => True) { waitRise with presc := .off, turns := [.clk] } t ∧ t.turns = []) ∧
    (∃ t, ReachesVia (fun u => u.slot ≠ Config.hEcho) { waitRise with slot := 4, turns := [.clk] } t ∧ t.tcnt = 1) :=
  ⟨⟨rfl, rfl, by decide⟩, ⟨rfl, _, .tail (.refl _) (by decide) rfl, rfl⟩, ⟨_, .tail (.refl _) rfl rfl, rfl⟩,
    ⟨_, .tail (.refl _) trivial rfl, rfl⟩, ⟨_, .tail (.refl _) trivial rfl, rfl⟩,
    ⟨_, .tail (.refl _) (by decide) rfl, rfl⟩⟩

/-- StrayEdgesAreNotObserved: both waiting phases, and a stray edge that is stepped over. -/
theorem witness_stray_edges :
    (Memory.wf waitRise.mem = true ∧ waitRise.seq = .rd6 ∧ waitRise.slot = Config.hEcho ∧ ArmedFits waitRise ∧
      waitRise.phase = Phase.wfr.code) ∧
    (ArmedFits waitFall ∧ waitFall.phase = Phase.wff.code) ∧
    ∃ t, ReachesVia (fun u => u.seq = .rd6) { waitRise with turns := [.echo .falling] } t ∧ t.turns = [] :=
  ⟨⟨rfl, rfl, rfl, by unfold ArmedFits; decide, rfl⟩, ⟨by unfold ArmedFits; decide, rfl⟩, _,
    .tail (.refl _) rfl rfl, rfl⟩

/-- SessionIsClosed, both clauses. -/
theorem witness_close :
    (Memory.wf measured.mem = true ∧ ({ measured with seq := .rd8 } : State).seq = .rd8) ∧
    (SessionInv { wired with seq := .rd9 } ∧ ∃ t, microStep { wired with seq := .rd9 } = .next t ∧ t.seq = .none) :=
  ⟨⟨rfl, rfl⟩, ⟨rfl, rfl⟩, _, rfl, rfl⟩

/-- SessionMeasuresThePulse: a session of three ticks, with ticks, stray edges, disabled dispatches and changes
of GIE between MAIN's steps, and a tick of latency at each edge. -/
theorem witness_session :
    let opening : List Turn := [.clk, .main, .echo .falling, .main, .irq, .main, .gie false, .main]
    let before : List Turn := [.clk, .echo .falling, .main]
    let pulse : List Turn := [.clk, .echo .rising, .clk, .irq, .clk]
    let closing : List Turn := [.main, .clk, .main, .gie false, .main, .echo .falling, .main, .irq]
    let s : State :=
      { wired with turns := sessionTurns opening before [.clk, .gie true] pulse [.clk, .main] closing ++ [.clk] }
    SessionInv s ∧ s.seq = .none ∧ s.slot = Config.hEcho ∧ s.icie = true ∧ s.icf = false ∧
      s.presc ≠ .off ∧ s.cfg.fCpuHz ≠ 0 ∧ (∀ t ∈ opening, quietTurn s.edge t = true) ∧ opening.count .main = 4 ∧
      (∀ t ∈ before, quietTurn .rising t = true) ∧
      (∀ t ∈ ([.clk, .gie true] : List Turn), latencyTurn .rising t = true) ∧
      (∀ t ∈ pulse, quietTurn .falling t = true) ∧
      (∀ t ∈ ([.clk, .main] : List Turn), latencyTurn .falling t = true) ∧
      (∀ t ∈ closing, quietTurn .rising t = true) ∧ closing.count .main = 4 ∧
      gieAfter s.gie (opening ++ before ++ [.clk, .gie true]) = true ∧
      gieAfter s.gie (opening ++ before ++ [.clk, .gie true] ++ pulse ++ [.clk, .main]) = true ∧
      pulse.count .clk = 3 :=
  ⟨⟨rfl, rfl⟩, by decide⟩

/-- SessionMemoryReadsBack, on a nonempty memory. -/
theorem witness_memory : Memory.wf measured.mem = true ∧ measured.mem ≠ [] := by decide

/-- The memory check refuses a listed zero, a repeated cell, an order that falls, and a fourth byte. -/
theorem test_memory_wf :
    ∀ m ∈ ([[(0, 0)], [(1, 5), (1, 6)], [(1, 5), (0, 3)], [(3, 1)]] : List (List Host.Cell)),
      Memory.wf m = false := by decide

/-- LocalCopyIsReadByRD9Only: RD7, and a tick while SEQ = RD9. -/
theorem witness_local_copy :
    let s : State := { measured with seq := .rd7, turns := [.main] }
    let u : State := { wired with seq := .rd9, turns := [.clk] }
    (¬ (s.seq = .rd9 ∧ s.nextTurn = .main) ∧ s.seq = .rd7 ∧ s.nextTurn = .main) ∧
    (¬ (u.seq = .rd9 ∧ u.nextTurn = .main) ∧ u.seq = .rd9) := by decide

/-- ConvertIsTheTruncatedExactValue, CalibrationOffsetIsClamped and DisabledPrescalerConvertsToTheOffset: each
clause at a value where it begins. -/
theorem witness_convert :
    (1 : BitVec 32) ≠ 0 ∧ ((27 : Nat) : Int) > 26 ∧ ((27 : Nat) : Int) ≤ 27 ∧ (-1 : Int) < 0 ∧
    0 ≤ (0 : BitVec 16).toInt ∧ (0x8000 : BitVec 16).toInt < 0 ∧ (-1 : BitVec 16).toInt < 0 := by decide

end Sys2Proof.Tests
end

/-! ## Proofs: echo ranging (spec/42_echo_ranging.md)

Frames of the state operations, the branches of H_ECHO, the micro-steps RD4 to RD9, and what a turn can do to
PHASE and to a waiting MAIN; then the obligations assembled from them. -/

namespace Sys2Proof.Machine

/-! ### Frames compose -/

theorem Piece.same_trans {s t u : State} {f : Piece} (h₁ : f.same s t) (h₂ : f.same t u) : f.same s u := by
  cases f <;> exact Eq.trans h₂ h₁

theorem ChangesOnly.mono {fs gs : List Piece} {s t : State} (h : ChangesOnly fs s t) (hsub : fs ⊆ gs) :
    ChangesOnly gs s t := fun f hf => h f fun hm => hf (hsub hm)

theorem ChangesOnly.trans {fs gs : List Piece} {s t u : State} (h₁ : ChangesOnly fs s t)
    (h₂ : ChangesOnly gs t u) : ChangesOnly (fs ++ gs) s u := fun f hf =>
  Piece.same_trans (h₁ f fun hm => hf (List.mem_append_left _ hm)) (h₂ f fun hm => hf (List.mem_append_right _ hm))

theorem ChangesOnly.phase_eq {fs : List Piece} {s t : State} (h : ChangesOnly fs s t)
    (hp : .byte .phase ∉ fs) : t.phase = s.phase := h (.byte .phase) hp

theorem ChangesOnly.pw_eq {fs : List Piece} {s t : State} (h : ChangesOnly fs s t)
    (hlo : .byte .pwLo ∉ fs) (hhi : .byte .pwHi ∉ fs) : t.pw = s.pw := by
  have lo : t.byte .pwLo = s.byte .pwLo := h (.byte .pwLo) hlo
  have hi : t.byte .pwHi = s.byte .pwHi := h (.byte .pwHi) hhi
  simp only [State.pw, lo, hi]

/-! ### The frame of each state operation -/

section Frames

variable (s : State)

theorem State.initUnit_changesOnly (e : Edge) (p : Prescaler) :
    ChangesOnly [.presc, .edge, .tcnt, .icr, .icf, .icie] s (s.initUnit e p) := by
  intro f hf; cases f <;> simp_all [Piece.same]

theorem State.setEdge_changesOnly (e : Edge) : ChangesOnly [.edge] s (s.setEdge e) := by
  intro f hf; cases f <;> simp_all [Piece.same]

theorem State.clearCounter_changesOnly : ChangesOnly [.tcnt] s s.clearCounter := by
  intro f hf; cases f <;> simp_all [Piece.same]

theorem State.setSlot_changesOnly (h : HandlerId) : ChangesOnly [.slot] s (s.setSlot h) := by
  intro f hf; cases f <;> simp_all [Piece.same]

theorem State.deinitUnit_changesOnly : ChangesOnly [.icie, .slot] s s.deinitUnit := by
  intro f hf; cases f <;> simp_all [Piece.same]

theorem State.respond_changesOnly (v : Word) : ChangesOnly [.resp] s (s.respond v) := by
  intro f hf; cases f <;> simp_all [Piece.same]

theorem State.goto_changesOnly (q : Seq) : ChangesOnly [.seq] s (s.goto q) := by
  intro f hf; cases f <;> simp_all [Piece.same]

theorem State.setRdtmp_changesOnly (v : Word) : ChangesOnly [.rdtmp] s (s.setRdtmp v) := by
  intro f hf; cases f <;> simp_all [Piece.same]

theorem State.enterInterrupt_changesOnly : ChangesOnly [.icf, .ilog] s s.enterInterrupt := by
  intro f hf; cases f <;> simp_all [Piece.same]

/-- A write of one session byte leaves the two others and every register alone (R42, R44). -/
theorem State.putByte_changesOnly (b : SessionByte) (v : Byte) : ChangesOnly [.byte b] s (s.putByte b v) := by
  intro f hf
  cases f with
  | byte k => exact s.putByte_byte_other (by simpa using hf) v
  | _ => rfl

theorem State.setPhase_changesOnly (p : Phase) : ChangesOnly [.byte .phase] s (s.setPhase p) :=
  s.putByte_changesOnly _ _

theorem State.setPw_changesOnly (v : Word) : ChangesOnly [.byte .pwLo, .byte .pwHi] s (s.setPw v) :=
  (s.putByte_changesOnly _ _).trans (State.putByte_changesOnly _ _ _)

end Frames

/-! ### H_ECHO and its dispatch (R120) -/

theorem State.enterInterrupt_ilog_echo {s : State} (h : s.slot = Config.hEcho) :
    s.enterInterrupt.ilog = s.ilog ++ [Config.hEcho] := by
  simp [h, Config.hEcho]

theorem State.onEdge_changesOnly_wfr {s : State} (h : s.phase = Phase.wfr.code) :
    ChangesOnly [.tcnt, .edge, .byte .phase] s s.onEdge := by
  rw [State.onEdge_wfr h]
  exact s.clearCounter_changesOnly.trans
    ((State.setEdge_changesOnly _ _).trans (State.setPhase_changesOnly _ _))

theorem State.onEdge_changesOnly_wff {s : State} (h : s.phase = Phase.wff.code) :
    ChangesOnly [.edge, .byte .phase, .byte .pwLo, .byte .pwHi] s s.onEdge := by
  rw [State.onEdge_wff h]
  exact ((s.setPw_changesOnly _).trans
    ((State.setEdge_changesOnly _ _).trans (State.setPhase_changesOnly _ _))).mono (by decide)

/-- H_ECHO, whatever the phase, writes at most TCNT, EDGE, PHASE and PW (R120). -/
theorem State.onEdge_changesOnly (s : State) :
    ChangesOnly [.tcnt, .edge, .byte .phase, .byte .pwLo, .byte .pwHi] s s.onEdge := by
  by_cases hr : s.phase = Phase.wfr.code
  · exact (State.onEdge_changesOnly_wfr hr).mono (by decide)
  · by_cases hf : s.phase = Phase.wff.code
    · exact (State.onEdge_changesOnly_wff hf).mono (by decide)
    · rw [State.onEdge_ignored hr hf]; exact fun f _ => by cases f <;> rfl

@[simp] theorem State.onEdge_icf (s : State) : s.onEdge.icf = s.icf :=
  s.onEdge_changesOnly .icf (by decide)

@[simp] theorem State.onEdge_ilog (s : State) : s.onEdge.ilog = s.ilog :=
  s.onEdge_changesOnly .ilog (by decide)

/-- The rising-edge branch. -/
theorem State.onEdge_effect_wfr {s : State} (hwf : Memory.wf s.mem = true) (h : s.phase = Phase.wfr.code) :
    s.onEdge.tcnt = 0 ∧ s.onEdge.edge = .falling ∧ s.onEdge.phase = Phase.wff.code := by
  rw [State.onEdge_wfr h]
  exact ⟨rfl, rfl, State.setPhase_phase hwf _⟩

/-- The falling-edge branch. -/
theorem State.onEdge_effect_wff {s : State} (hwf : Memory.wf s.mem = true) (h : s.phase = Phase.wff.code) :
    s.onEdge.pw = s.icr ∧ s.onEdge.edge = .rising ∧ s.onEdge.phase = Phase.ready.code := by
  rw [State.onEdge_wff h]
  exact ⟨by simp [State.setPw_pw hwf], rfl, State.setPhase_phase (State.setPw_wf hwf _) _⟩

/-- A dispatch of H_ECHO always completes, clears ICF and logs the handler (R82, R120). -/
theorem takeInterrupt_echo_logs {s : State} (h : s.slot = Config.hEcho) :
    takeInterrupt s = .next s.enterInterrupt.onEdge ∧ s.enterInterrupt.onEdge.icf = false ∧
      s.enterInterrupt.onEdge.ilog = s.ilog ++ [Config.hEcho] :=
  ⟨takeInterrupt_echo h, by simp, by rw [State.onEdge_ilog, State.enterInterrupt_ilog_echo h]⟩

/-- Outside the two waiting phases a dispatch of H_ECHO does nothing but the entry does (R127). -/
theorem enterInterrupt_onEdge_changesOnly_ignored {s : State} (hr : s.phase ≠ Phase.wfr.code)
    (hf : s.phase ≠ Phase.wff.code) : ChangesOnly [.icf, .ilog] s s.enterInterrupt.onEdge := by
  rw [State.onEdge_ignored (s := s.enterInterrupt) hr hf]
  exact s.enterInterrupt_changesOnly

/-! ### The commands -/

theorem execIcuRegister_next {h : HandlerId} {s t : State} (he : execIcuRegister h s = .next t) :
    h ≠ 0#4 ∧ t = s.setSlot h := by
  unfold execIcuRegister at he
  split at he
  · injection he
  · next hne => injection he with he; exact ⟨hne, he.symm⟩

theorem execUsInit_next {s t : State} (he : execUsInit s = .next t) : s.seq = .none ∧ t = s.goto .ui1 := by
  unfold execUsInit at he
  split at he
  · injection he
  · next hb => injection he with he; exact ⟨State.busy_iff.1 (by simpa using hb), he.symm⟩

theorem execUsReadDistance_next {s t : State} (he : execUsReadDistance s = .next t) :
    s.seq = .none ∧ s.phase = Phase.idle.code ∧ t = s.goto .rd1 := by
  unfold execUsReadDistance at he
  split at he
  · injection he
  · next hb =>
    split at he
    · next hp => injection he with he; exact ⟨State.busy_iff.1 (by simpa using hb), hp, he.symm⟩
    · injection he

/-- What a command that completes may write: in particular neither ILOG nor session memory. -/
theorem exec_changesOnly {i : Instr} {s t : State} (h : exec i s = .next t) :
    ChangesOnly [.presc, .edge, .tcnt, .icr, .icf, .icie, .slot, .resp, .seq] s t := by
  cases i with
  | icuInit e p => injection h with h; subst h; exact (s.initUnit_changesOnly e p).mono (by decide)
  | icuSetEdge e => injection h with h; subst h; exact (s.setEdge_changesOnly e).mono (by decide)
  | icuGetCapture => injection h with h; subst h; exact (s.respond_changesOnly _).mono (by decide)
  | icuClearCounter => injection h with h; subst h; exact s.clearCounter_changesOnly.mono (by decide)
  | icuRegister k =>
    obtain ⟨-, rfl⟩ := execIcuRegister_next h
    exact (s.setSlot_changesOnly k).mono (by decide)
  | icuDeinit => injection h with h; subst h; exact s.deinitUnit_changesOnly.mono (by decide)
  | usInit =>
    obtain ⟨-, rfl⟩ := execUsInit_next h
    exact (s.goto_changesOnly _).mono (by decide)
  | usReadDistance =>
    obtain ⟨-, -, rfl⟩ := execUsReadDistance_next h
    exact (s.goto_changesOnly _).mono (by decide)

/-! ### The micro-steps RD4 and RD6 to RD9 -/

theorem microStep_rd4 {s : State} (hq : s.seq = .rd4) : microStep s = .next (stepRD4 s) := by
  simp only [microStep, hq]

theorem microStep_rd6_ready {s : State} (hq : s.seq = .rd6) (hp : s.phase = Phase.ready.code) :
    microStep s = .next (s.goto .rd7) := by
  simp only [microStep, hq, stepRD6, State.ready_iff.2 hp, if_true]

theorem microStep_rd6_hold {s : State} (hq : s.seq = .rd6) (hp : s.phase ≠ Phase.ready.code) :
    microStep s = .next s := by
  simp only [microStep, hq, stepRD6, if_neg (mt State.ready_iff.1 hp)]

theorem microStep_rd7 {s : State} (hq : s.seq = .rd7) : microStep s = .next (stepRD7 s) := by
  simp only [microStep, hq]

theorem microStep_rd8 {s : State} (hq : s.seq = .rd8) : microStep s = .next (stepRD8 s) := by
  simp only [microStep, hq]

/-- At RD6 MAIN has a step exactly when the session is ready (R116). -/
theorem turnEnabled_main_rd6 {s : State} (hq : s.seq = .rd6) : turnEnabled .main s = s.ready := by
  simp [turnEnabled, State.busy, hq]

/-- The call returns through RD9 alone, and RD9 leaves PHASE as it is (R119). -/
theorem microStep_rd9_next {s t : State} (hq : s.seq = .rd9) (h : microStep s = .next t) :
    t.seq = .none ∧ t.phase = s.phase := by
  simp only [microStep, hq, stepRD9] at h
  split at h
  · injection h
  · injection h with h; subst h; exact ⟨rfl, rfl⟩

/-! ### What a turn does to PHASE and to a waiting MAIN -/

@[simp] theorem State.dropTurn_dispatchEnabled (s : State) : s.dropTurn.dispatchEnabled = s.dispatchEnabled := by
  simp [State.dispatchEnabled]

/-- PHASE has four writers: RD4, the two branches of H_ECHO, and RD8 (R22). -/
theorem Effect.phase_cases {t : Turn} {s u : State} (he : Effect t s u) (hwf : Memory.wf s.mem = true) :
    u.phase = s.phase ∨
    (t = .main ∧ s.seq = .rd4 ∧ u.phase = Phase.wfr.code) ∨
    (t = .irq ∧ s.dispatchEnabled = true ∧ s.slot = Config.hEcho ∧ s.phase = Phase.wfr.code ∧
      u.phase = Phase.wff.code) ∨
    (t = .irq ∧ s.dispatchEnabled = true ∧ s.slot = Config.hEcho ∧ s.phase = Phase.wff.code ∧
      u.phase = Phase.ready.code) ∨
    (t = .main ∧ s.seq = .rd8 ∧ u.phase = Phase.idle.code) := by
  cases he with
  | rd4 hq => exact .inr (.inl ⟨rfl, hq, State.setPhase_phase hwf _⟩)
  | irqRising hd hs hp => exact .inr (.inr (.inl ⟨rfl, hd, hs, hp, State.setPhase_phase hwf _⟩))
  | irqFalling hd hs hp =>
    exact .inr (.inr (.inr (.inl ⟨rfl, hd, hs, hp, State.setPhase_phase (State.setPw_wf hwf _) _⟩)))
  | rd8 hq => exact .inr (.inr (.inr (.inr ⟨rfl, hq, State.setPhase_phase hwf _⟩)))
  | _ => exact .inl rfl

/-- Only the falling-edge branch of H_ECHO brings PHASE = READY. -/
theorem Effect.falling_of_becomes_ready {t : Turn} {s u : State} (he : Effect t s u)
    (hwf : Memory.wf s.mem = true) (hs : s.phase ≠ Phase.ready.code) (hu : u.phase = Phase.ready.code) :
    t = .irq ∧ s.dispatchEnabled = true ∧ s.slot = Config.hEcho ∧ s.phase = Phase.wff.code := by
  obtain h | ⟨-, -, h⟩ | ⟨-, -, -, -, h⟩ | ⟨ht, hd, hslot, hp, -⟩ | ⟨-, -, h⟩ := he.phase_cases hwf
  · exact absurd (h.symm.trans hu) hs
  · exact absurd (h.symm.trans hu) (by decide)
  · exact absurd (h.symm.trans hu) (by decide)
  · exact ⟨ht, hd, hslot, hp⟩
  · exact absurd (h.symm.trans hu) (by decide)

/-- A word is accepted only while SEQ = NONE (R26, R75). -/
theorem Effect.seq_eq_none_of_issue {w : Byte} {s u : State} (he : Effect (.issue w) s u) : s.seq = .none := by
  cases he <;> assumption

/-- While PHASE is not READY no turn of any agent moves MAIN from RD6 or makes it respond (R116). -/
theorem runTurn_holds_at_rd6 {t : Turn} {s u : State} (hq : s.seq = .rd6) (hp : s.phase ≠ Phase.ready.code)
    (h : runTurn t s = .next u) : u.seq = .rd6 ∧ u.resp = s.resp := by
  have he := effect_of_runTurn h
  cases t with
  | issue w => exact absurd (hq.symm.trans he.seq_eq_none_of_issue) (by decide)
  | main =>
    obtain rfl : s = u := by
      simpa only [runTurn, microStep_rd6_hold hq hp, Host.Outcome.next.injEq] using h
    exact ⟨hq, rfl⟩
  | irq | clk | echo | gie => cases he <;> exact ⟨hq, rfl⟩

theorem ReachesVia.holds_at_rd6 {s t : State} (hq : s.seq = .rd6)
    (h : ReachesVia (fun u => u.phase ≠ Phase.ready.code) s t) : t.seq = .rd6 ∧ t.resp = s.resp := by
  induction h with
  | refl => exact ⟨hq, rfl⟩
  | @tail t u _ hp hstep ih =>
    obtain ⟨htq, htr⟩ := ih
    obtain ⟨huq, hur⟩ := runTurn_holds_at_rd6 (s := t.dropTurn) (by simpa using htq) (by simpa using hp) hstep
    exact ⟨huq, by rw [hur, State.dropTurn_resp, htr]⟩

/-! ### The obligations -/

/-- Settles O35: the dispatch is the interrupt's entry followed by the branch of H_ECHO that PHASE selects, and
no command writes ILOG or session memory. -/
theorem echoHandlerBranches : Obligations.EchoHandlerBranches := by
  refine ⟨fun s hwf hslot => ?_, fun i s t h => ?_⟩
  · obtain ⟨hnext, hicf, hilog⟩ := takeInterrupt_echo_logs hslot
    refine ⟨_, hnext, hicf, hilog, fun hr => ?_, fun hf => ?_, enterInterrupt_onEdge_changesOnly_ignored⟩
    · obtain ⟨htcnt, hedge, hphase⟩ := State.onEdge_effect_wfr (s := s.enterInterrupt) hwf hr
      exact ⟨htcnt, hedge, hphase, s.enterInterrupt_changesOnly.trans (State.onEdge_changesOnly_wfr hr)⟩
    · obtain ⟨hpw, hedge, hphase⟩ := State.onEdge_effect_wff (s := s.enterInterrupt) hwf hf
      exact ⟨hpw, hedge, hphase, s.enterInterrupt_changesOnly.trans (State.onEdge_changesOnly_wff hf)⟩
  · have hframe := exec_changesOnly h
    exact ⟨hframe .ilog (by decide), hframe.phase_eq (by decide), hframe.pw_eq (by decide) (by decide)⟩

/-- Settles O47: RD6 reads PHASE alone, PHASE becomes READY only by the falling-edge branch, and the hold is
kept along a run by induction on it. -/
theorem waitHoldsUntilReady : Obligations.WaitHoldsUntilReady := by
  refine ⟨fun s hq => ⟨fun hp => ?_, fun hp => ?_⟩, fun s u hwf hs hstep hu => ?_,
    fun s t hq h => h.holds_at_rd6 hq⟩
  · exact ⟨by rw [turnEnabled_main_rd6 hq, State.ready_iff.2 hp], _, microStep_rd6_ready hq hp, rfl,
      s.goto_changesOnly _⟩
  · exact ⟨by rw [turnEnabled_main_rd6 hq]; simp [State.ready, hp], microStep_rd6_hold hq hp⟩
  · simpa using (step_effect hstep).falling_of_becomes_ready (by simpa using hwf) (by simpa using hs) hu

/-- Settles O36: neither phase is one H_ECHO acts in. -/
theorem echoHandlerIsANoOpOutsideTheWait : Obligations.EchoHandlerIsANoOpOutsideTheWait := by
  intro s hslot hp
  obtain ⟨hnext, hicf, hilog⟩ := takeInterrupt_echo_logs hslot
  have hnot : s.phase ≠ Phase.wfr.code ∧ s.phase ≠ Phase.wff.code := by
    rcases hp with hp | hp <;> rw [hp] <;> decide
  exact ⟨_, hnext, hicf, hilog, enterInterrupt_onEdge_changesOnly_ignored hnot.1 hnot.2⟩

/-- Settles O45, by the frame of the write of PHASE. -/
theorem sessionIsOpened : Obligations.SessionIsOpened := fun s hwf hq =>
  ⟨_, microStep_rd4 hq, State.setPhase_phase hwf _, rfl, s.setPhase_pw _,
    ((s.setPhase_changesOnly _).trans (State.goto_changesOnly _ _)).mono (by decide)⟩

/-- Settles O50, by the frame of the write of RDTMP. -/
theorem accumulatorIsRead : Obligations.AccumulatorIsRead := fun s hq =>
  ⟨_, microStep_rd7 hq, rfl, rfl, (s.setRdtmp_changesOnly _).trans (State.goto_changesOnly _ _)⟩

/-- Settles O51: RD8 writes IDLE, and at RD9 the session invariant still has it. -/
theorem sessionIsClosed : Obligations.SessionIsClosed := by
  refine ⟨fun s hwf hq => ?_, fun s t ⟨_, hfits⟩ hq h => ?_⟩
  · exact ⟨_, microStep_rd8 hq, State.setPhase_phase hwf _, rfl,
      ((s.setPhase_changesOnly _).trans (State.goto_changesOnly _ _)).mono (by decide)⟩
  · obtain ⟨hseq, hphase⟩ := microStep_rd9_next hq h
    have hidle : s.phase = Phase.idle.code := by simpa only [hq, phaseFits] using hfits
    exact ⟨hseq, hphase.trans hidle⟩

end Sys2Proof.Machine

/-! ## Proofs: distance conversion (spec/43_distance_conversion.md)

The two branches of the offset step; then the obligation assembled from them. -/

namespace Sys2Proof.Machine

/-! ### The calibration offset (R133) -/

/-- The offset is applied: the integer difference is positive, so it is not truncated. -/
theorem adjustDistance_of_gt {raw : Nat} {k : Int} (h : (raw : Int) > k) :
    (adjustDistance raw k : Int) = raw - k := by
  have hpos : 0 ≤ (raw : Int) - k := by omega
  rw [adjustDistance, if_pos h, Int.toNat_of_nonneg hpos]

/-- The offset is not applied, equality included. -/
theorem adjustDistance_of_le {raw : Nat} {k : Int} (h : (raw : Int) ≤ k) : adjustDistance raw k = raw := by
  rw [adjustDistance, if_neg (not_lt.2 h)]

/-- Settles O59: a negative offset is below every raw distance, so its clause is a case of the applied one. -/
theorem calibrationOffsetIsClamped : Obligations.CalibrationOffsetIsClamped := by
  refine fun raw k => ⟨fun hgt => ?applied, adjustDistance_of_le, fun hneg => ?negative, by decide⟩
  case applied =>
    have hsub := adjustDistance_of_gt hgt
    exact ⟨hsub, by omega⟩
  case negative =>
    have hsub := adjustDistance_of_gt (raw := raw) (k := k) (by omega)
    exact ⟨by omega, by omega⟩

end Sys2Proof.Machine

/-! ## Proofs: the capture interrupt (spec/60_exceptions.md)

The frame of a dispatch whatever the handler, and when the next edge is dispatchable; then the obligation
assembled from them. -/

namespace Sys2Proof.Machine

/-- A foreign body writes at most TCNT, EDGE and SLOT (R84). -/
theorem runBody_changesOnly {ws : List Byte} {s t : State} (h : runBody ws s = .next t) :
    ChangesOnly [.tcnt, .edge, .slot] s t := by
  intro f hf
  rw [runBody_next h]
  cases f with
  | tcnt | edge | slot => exact absurd hf (by decide)
  | _ => rfl

/-- A dispatch writes ICF and ILOG at its entry, and then what H_ECHO or a foreign body may write (R147). -/
theorem takeInterrupt_changesOnly {s t : State} (h : takeInterrupt s = .next t) :
    ChangesOnly [.icf, .ilog, .tcnt, .edge, .slot, .byte .phase, .byte .pwLo, .byte .pwHi] s t := by
  have hentry := s.enterInterrupt_changesOnly
  obtain ⟨-, rfl⟩ | ⟨-, rfl⟩ | ⟨-, -, hbody⟩ := takeInterrupt_next h
  · exact hentry.mono (by decide)
  · exact (hentry.trans (State.onEdge_changesOnly _)).mono (by decide)
  · exact (hentry.trans (runBody_changesOnly hbody)).mono (by decide)

theorem State.dispatchEnabled_iff {s : State} :
    s.dispatchEnabled = true ↔ s.icf = true ∧ s.icie = true ∧ s.gie = true := by
  simp [State.dispatchEnabled, and_assoc]

/-- A recognized edge supplies the pending flag, so the two enables are all that a dispatch still needs. -/
theorem turnEnabled_irq_evEdge {s : State} {pol : Edge} (hrec : s.recognizes pol = true)
    (hicie : s.icie = true) (hgie : s.gie = true) : turnEnabled .irq (evEdge pol s) = true := by
  rw [evEdge_recognized hrec]
  exact State.dispatchEnabled_iff.2 ⟨s.latch_icf, hicie, hgie⟩

/-- Settles O34: what is kept is read off the frame of a dispatch, and the two enables are among it. -/
theorem interruptSavesAndRestoresNothing : Obligations.InterruptSavesAndRestoresNothing := by
  refine fun s =>
    ⟨⟨s.enterInterrupt, s.enterInterrupt_changesOnly, rfl, rfl, rfl⟩, fun t h => ?_⟩
  have hframe := takeInterrupt_changesOnly h
  have hicie : t.icie = s.icie := hframe .icie (by decide)
  have hgie : t.gie = s.gie := hframe .gie (by decide)
  refine ⟨hframe .seq (by decide), hframe .rdtmp (by decide), hicie, hgie, hframe, fun hd pol hrec => ?_⟩
  obtain ⟨-, hi, hg⟩ := State.dispatchEnabled_iff.1 hd
  exact turnEnabled_irq_evEdge hrec (hicie.trans hi) (hgie.trans hg)

end Sys2Proof.Machine

/-! ## Proofs: command words (spec/30_encoding.md)

The fields of a word put together and taken apart, the codes read back, and what each format can answer; then the
obligations assembled from them. -/

namespace Sys2Proof

/-! ### Fields and codes -/

/-- A word is its two nibbles (R60). -/
theorem opcodeField_append_hField (w : Byte) : opcodeField w ++ hField w = w :=
  BitVec.extractLsb'_append_extractLsb'

/-- The operand nibble is its edge bit and its prescaler bits (R62). -/
theorem eField_append_pField (w : Byte) : eField w ++ pField w = hField w :=
  BitVec.extractLsb'_append_extractLsb'_eq_extractLsb' rfl

@[simp] theorem opcodeField_encode (i : Instr) : opcodeField (encode i) = opcodeOf i :=
  BitVec.extractLsb'_append_eq_left

@[simp] theorem hField_encode (i : Instr) : hField (encode i) = operandOf i :=
  BitVec.extractLsb'_append_eq_right

/-- The edge bit and the prescaler bits of a word whose operand nibble is put together from them. -/
theorem eField_pField_of_hField {w : Byte} {e : BitVec 1} {p : BitVec 3} (h : hField w = e ++ p) :
    eField w = e ∧ pField w = p := by
  rw [← eField_append_pField] at h
  constructor
  · rw [← BitVec.extractLsb'_append_eq_left (a := eField w) (b := pField w), h, BitVec.extractLsb'_append_eq_left]
  · rw [← BitVec.extractLsb'_append_eq_right (a := eField w) (b := pField w), h, BitVec.extractLsb'_append_eq_right]

@[simp] theorem edgeOfCode_edgeCode (e : Edge) : edgeOfCode (edgeCode e) = e := by cases e <;> rfl

@[simp] theorem prescalerOfCode_prescalerCode (p : Prescaler) : prescalerOfCode (prescalerCode p) = some p := by
  cases p <;> rfl

@[simp] theorem edgeCode_edgeOfCode (e : BitVec 1) : edgeCode (edgeOfCode e) = e := by revert e; decide

theorem prescalerCode_of_prescalerOfCode {p : BitVec 3} {q : Prescaler} (h : prescalerOfCode p = some q) :
    prescalerCode q = p := by revert p; cases q <;> decide

/-! ### What each format answers -/

theorem decodeN_eq_ok {w : Byte} {i j : Instr} : decodeN w i = .ok j ↔ hField w = 0#4 ∧ j = i := by
  unfold decodeN
  split <;> simp_all [eq_comm]

theorem decodeE_eq_ok {w : Byte} {mk : Edge → Instr} {j : Instr} :
    decodeE w mk = .ok j ↔ ∃ e, hField w = edgeCode e ++ 0#3 ∧ j = mk e := by
  unfold decodeE
  constructor
  · split
    · next hp =>
      intro h
      injection h with h
      exact ⟨edgeOfCode (eField w), by rw [edgeCode_edgeOfCode, ← hp, eField_append_pField], h.symm⟩
    · nofun
  · rintro ⟨e, hw, rfl⟩
    obtain ⟨he, hp⟩ := eField_pField_of_hField hw
    rw [if_pos hp, he, edgeOfCode_edgeCode]

theorem decodeEP_eq_ok {w : Byte} {mk : Edge → Prescaler → Instr} {j : Instr} :
    decodeEP w mk = .ok j ↔ ∃ e p, hField w = edgeCode e ++ prescalerCode p ∧ j = mk e p := by
  unfold decodeEP
  constructor
  · split
    · next p hp =>
      intro h
      injection h with h
      exact ⟨edgeOfCode (eField w), p,
        by rw [edgeCode_edgeOfCode, prescalerCode_of_prescalerOfCode hp, eField_append_pField], h.symm⟩
    · nofun
  · rintro ⟨e, p, hw, rfl⟩
    obtain ⟨he, hp⟩ := eField_pField_of_hField hw
    rw [he, hp, edgeOfCode_edgeCode, prescalerOfCode_prescalerCode]

theorem decodeH_eq_ok {w : Byte} {mk : HandlerId → Instr} {j : Instr} :
    decodeH w mk = .ok j ↔ hField w ≠ 0#4 ∧ j = mk (hField w) := by
  unfold decodeH
  split <;> simp_all [eq_comm]

/-! ### Decoding is the inverse of encoding -/

/-- The decoder answers a command exactly for the word with that command's two nibbles (R66, R71). -/
theorem decode_eq_ok_iff {w : Byte} {i : Instr} :
    decode w = .ok i ↔ i.wf = true ∧ opcodeField w = opcodeOf i ∧ hField w = operandOf i := by
  constructor
  · intro h
    unfold decode at h
    split at h
    case h_1 hop => obtain ⟨e, p, hh, rfl⟩ := decodeEP_eq_ok.1 h; exact ⟨rfl, BitVec.eq_of_toNat_eq hop, hh⟩
    case h_2 hop => obtain ⟨e, hh, rfl⟩ := decodeE_eq_ok.1 h; exact ⟨rfl, BitVec.eq_of_toNat_eq hop, hh⟩
    case h_5 hop =>
      obtain ⟨hne, rfl⟩ := decodeH_eq_ok.1 h
      exact ⟨bne_iff_ne.2 hne, BitVec.eq_of_toNat_eq hop, rfl⟩
    case h_9 => nomatch h
    all_goals
      next hop => obtain ⟨hh, rfl⟩ := decodeN_eq_ok.1 h; exact ⟨rfl, BitVec.eq_of_toNat_eq hop, hh⟩
  · rintro ⟨hwf, hop, hh⟩
    unfold decode
    rw [hop]
    cases i with
    | icuInit e p => exact decodeEP_eq_ok.2 ⟨e, p, hh, rfl⟩
    | icuSetEdge e => exact decodeE_eq_ok.2 ⟨e, hh, rfl⟩
    | icuRegister h =>
      obtain rfl : hField w = h := hh
      exact decodeH_eq_ok.2 ⟨bne_iff_ne.1 hwf, rfl⟩
    | icuGetCapture | icuClearCounter | icuDeinit | usInit | usReadDistance => exact decodeN_eq_ok.2 ⟨hh, rfl⟩

/-- A word is a command's exactly when its two nibbles are (R60). -/
theorem encode_eq_iff {w : Byte} {i : Instr} :
    encode i = w ↔ opcodeField w = opcodeOf i ∧ hField w = operandOf i := by
  constructor
  · rintro rfl
    exact ⟨opcodeField_encode i, hField_encode i⟩
  · rintro ⟨hop, hh⟩
    rw [encode, ← hop, ← hh, opcodeField_append_hField]

/-- The words of the well-formed commands are the legal ones (R67). -/
theorem decode_eq_ok_iff_encode_eq {w : Byte} {i : Instr} :
    decode w = .ok i ↔ i.wf = true ∧ encode i = w := by
  rw [decode_eq_ok_iff, encode_eq_iff]

/-- A word is reserved exactly when no command has it (R68). -/
theorem decode_eq_error_iff {w : Byte} : (∃ r, decode w = .error r) ↔ ∀ i, decode w ≠ .ok i := by
  cases decode w <;> simp

/-! ### The obligations -/

/-- Settles O3: the word's two nibbles are the command's own, and the decoder reads nothing else. -/
theorem decodeOfEncodeIsTheCommand : Obligations.DecodeOfEncodeIsTheCommand :=
  fun _ hwf => decode_eq_ok_iff_encode_eq.2 ⟨hwf, rfl⟩

/-- Settles O4, by the same equivalence read from the word's side. -/
theorem decodedWordIsItsEncoding : Obligations.DecodedWordIsItsEncoding :=
  fun _ _ => decode_eq_ok_iff_encode_eq.1

/-- Settles O5: the port looks at the word before it looks at SEQ. -/
theorem reservedWordsAreRefused : Obligations.ReservedWordsAreRefused := by
  refine fun w => ⟨?_, fun s ts hts ⟨r, hr⟩ => ?_⟩
  · rw [decode_eq_error_iff]
    exact forall_congr' fun i => by rw [Ne, decode_eq_ok_iff_encode_eq, not_and]
  · rw [Machine.step_of_turns hts]
    simp only [Machine.runTurn, Machine.issueWord, hr]

/-- Settles O6: eleven words, each decoded by evaluation. -/
theorem writtenOutWordsDecode : Obligations.WrittenOutWordsDecode := by
  unfold Obligations.WrittenOutWordsDecode
  decide

end Sys2Proof

/-! ## Proofs: the words of a handler body, and the step (spec/40_callback_registry.md, spec/30_encoding.md)

What a body's word answers, allowed or not; what the command port answers, busy or free; every refusal of every
turn; then the obligations assembled from them. -/

namespace Sys2Proof.Machine

/-! ### The words of a foreign body (R84) -/

/-- An allowed word does what the command it encodes does, but for the response (R84). -/
theorem handlerWord_of_allowed {w : Byte} {i : Instr} {s : State} (hd : decode w = .ok i)
    (ha : allowedInBody w = true) :
    handlerWord w s = mapNext (fun t => { t with resp := s.resp }) (exec i s) := by
  simp only [allowedInBody, hd] at ha
  simp only [handlerWord, hd]
  cases i with
  | icuSetEdge e => rfl
  | icuGetCapture => rfl
  | icuClearCounter => rfl
  | icuRegister h =>
    have hne := decode_icuRegister_ne hd
    simp only [exec, execIcuRegister, if_neg hne]
    rfl
  | icuInit | icuDeinit | usInit | usReadDistance => nomatch ha

theorem handlerWord_allowed_next {w : Byte} (s : State) (ha : allowedInBody w = true) :
    ∃ t, handlerWord w s = .next t := by
  unfold allowedInBody at ha
  unfold handlerWord
  split at ha <;> simp_all

theorem handlerWord_of_not_allowed {w : Byte} (s : State) (ha : allowedInBody w = false) :
    handlerWord w s = .refused .badHandlerBody := by
  unfold allowedInBody at ha
  unfold handlerWord
  split at ha <;> simp_all

/-- A body of allowed words always completes. -/
theorem runBody_allowed_next {ws : List Byte} (s : State) (ha : ws.all allowedInBody = true) :
    ∃ t, runBody ws s = .next t := by
  induction ws generalizing s with
  | nil => exact ⟨s, rfl⟩
  | cons w ws ih =>
    rw [List.all_cons, Bool.and_eq_true] at ha
    obtain ⟨u, hu⟩ := handlerWord_allowed_next s ha.1
    obtain ⟨t, ht⟩ := ih u ha.2
    exact ⟨t, by rw [runBody_cons hu, ht]⟩

/-- A body with another word is refused, whatever stands before that word. -/
theorem runBody_of_not_allowed {ws : List Byte} (s : State) (ha : ∃ w ∈ ws, allowedInBody w = false) :
    runBody ws s = .refused .badHandlerBody := by
  induction ws generalizing s with
  | nil => simp at ha
  | cons w ws ih =>
    cases hw : allowedInBody w with
    | false => simp only [runBody, handlerWord_of_not_allowed s hw]
    | true =>
      obtain ⟨u, hu⟩ := handlerWord_allowed_next s hw
      rw [runBody_cons hu]
      exact ih u (by simpa [hw] using ha)

/-- A body is refused only for a word that is not allowed. -/
theorem runBody_refused {ws : List Byte} {s : State} {r : Refusal} (h : runBody ws s = .refused r) :
    r = .badHandlerBody ∧ ∃ w ∈ ws, allowedInBody w = false := by
  by_cases ha : ∃ w ∈ ws, allowedInBody w = false
  · rw [runBody_of_not_allowed s ha] at h
    injection h with h
    exact ⟨h.symm, ha⟩
  · obtain ⟨t, ht⟩ := runBody_allowed_next s (ws := ws) (by simpa using ha)
    rw [ht] at h
    nomatch h

/-! ### The command port (R68, R75) -/

theorem issueWord_free {w : Byte} {i : Instr} {s : State} (hd : decode w = .ok i) (hq : s.seq = .none) :
    issueWord w s = exec i s := by
  simp [issueWord, hd, State.busy_iff.2 hq]

theorem issueWord_busy {w : Byte} {i : Instr} {s : State} (hd : decode w = .ok i) (hq : s.seq ≠ .none) :
    issueWord w s = .refused (busyRefusal i) := by
  simp [issueWord, hd, State.busy, hq]

theorem busyRefusal_of_ne {i : Instr} (h : i ≠ .usReadDistance) : busyRefusal i = .notAccepted := by
  cases i with
  | usReadDistance => exact absurd rfl h
  | _ => rfl

/-- A well-formed command completes for a free MAIN in IDLE (R112). -/
theorem exec_completes {i : Instr} {s : State} (hwf : i.wf = true) (hq : s.seq = .none)
    (hp : s.phase = Phase.idle.code) : ∃ u, exec i s = .next u := by
  have hb := State.busy_iff.2 hq
  cases i with
  | icuRegister h => exact ⟨_, if_neg (bne_iff_ne.1 hwf)⟩
  | usInit => exact ⟨s.goto .ui1, by simp [exec, execUsInit, hb]⟩
  | usReadDistance => exact ⟨s.goto .rd1, by simp [exec, execUsReadDistance, hb, hp]⟩
  | icuInit | icuSetEdge | icuGetCapture | icuClearCounter | icuDeinit => exact ⟨_, rfl⟩

/-- For a free MAIN a well-formed command is refused only as a read outside IDLE (R112, R125). -/
theorem exec_refused {i : Instr} {s : State} {r : Refusal} (hwf : i.wf = true) (hq : s.seq = .none)
    (h : exec i s = .refused r) : i = .usReadDistance ∧ s.phase ≠ Phase.idle.code ∧ r = .reentrantRead := by
  have hb := State.busy_iff.2 hq
  cases i with
  | icuRegister k => exact nomatch (if_neg (bne_iff_ne.1 hwf)).symm.trans h
  | usInit => simp [exec, execUsInit, hb] at h
  | usReadDistance =>
    simp only [exec, execUsReadDistance, hb] at h
    split at h
    · contradiction
    · split at h
      · nomatch h
      · next hp => injection h with h; exact ⟨rfl, hp, h.symm⟩
  | icuInit | icuSetEdge | icuGetCapture | icuClearCounter | icuDeinit => nomatch h

/-! ### The refusals of each turn -/

theorem issueWord_refused {w : Byte} {s : State} {r : Refusal} (h : issueWord w s = .refused r) :
    (r = .reservedWord ∧ ∃ c, decode w = .error c) ∨
    (r = .reentrantRead ∧ decode w = .ok .usReadDistance ∧ (s.seq ≠ .none ∨ s.phase ≠ Phase.idle.code)) ∨
    (r = .notAccepted ∧ ∃ i, decode w = .ok i ∧ i ≠ .usReadDistance ∧ s.seq ≠ .none) := by
  cases hd : decode w with
  | error c =>
    simp only [issueWord, hd] at h
    injection h with h
    exact .inl ⟨h.symm, c, rfl⟩
  | ok i =>
    by_cases hq : s.seq = .none
    · rw [issueWord_free hd hq] at h
      obtain ⟨rfl, hp, rfl⟩ := exec_refused (decode_eq_ok_iff.1 hd).1 hq h
      exact .inr (.inl ⟨rfl, rfl, .inr hp⟩)
    · rw [issueWord_busy hd hq] at h
      injection h with h
      by_cases hi : i = .usReadDistance
      · subst hi h
        exact .inr (.inl ⟨rfl, rfl, .inl hq⟩)
      · rw [busyRefusal_of_ne hi] at h
        exact .inr (.inr ⟨h.symm, i, rfl, hi, hq⟩)

/-- RD9 is the one micro-step that can be refused (R136). -/
theorem microStep_refused {s : State} {r : Refusal} (h : microStep s = .refused r) :
    r = .badConfig ∧ s.seq = .rd9 ∧ s.cfg.fCpuHz = 0 := by
  cases hq : s.seq with
  | rd9 =>
    simp only [microStep, hq, stepRD9] at h
    split at h
    · next hf => injection h with h; exact ⟨h.symm, rfl, hf⟩
    · nomatch h
  | _ => simp [microStep, hq] at h

/-- Only a foreign body can refuse a dispatch (R84). -/
theorem takeInterrupt_refused {s : State} {r : Refusal} (h : takeInterrupt s = .refused r) :
    r = .badHandlerBody ∧ s.slot ≠ 0 ∧ s.slot ≠ Config.hEcho ∧
      ∃ w ∈ foreignBody s.cfg s.slot, allowedInBody w = false := by
  by_cases h0 : s.slot = 0#4
  · rw [takeInterrupt_empty h0] at h; nomatch h
  · by_cases h1 : s.slot = Config.hEcho
    · rw [takeInterrupt_echo h1] at h; nomatch h
    · rw [takeInterrupt_foreign h0 h1] at h
      obtain ⟨hr, hw⟩ := runBody_refused h
      exact ⟨hr, h0, h1, hw⟩

theorem evDispatch_refused {s : State} {r : Refusal} (h : evDispatch s = .refused r) :
    s.dispatchEnabled = true ∧ takeInterrupt s = .refused r := by
  unfold evDispatch at h
  split at h
  · next hd => exact ⟨hd, h⟩
  · nomatch h

/-! ### The obligations -/

/-- Settles O12: the invariant makes PHASE = IDLE, and a decoded command is well formed. -/
theorem acceptedCommandsComplete : Obligations.AcceptedCommandsComplete := by
  intro s w i ts ⟨_, hfits⟩ hts hq hd
  have hidle : s.phase = Phase.idle.code := by simpa only [hq, phaseFits] using hfits
  rw [step_of_turns hts, runTurn, issueWord_free (s := s.setTurns ts) hd hq]
  exact exec_completes (decode_eq_ok_iff.1 hd).1 hq hidle

/-- Settles O13, agent by agent: the port, RD9, and a dispatch that runs a foreign body. -/
theorem refusalsAreTheSpecsOwn : Obligations.RefusalsAreTheSpecsOwn := by
  intro s r h
  unfold step at h
  cases ht : s.nextTurn with
  | issue w =>
    rw [ht] at h
    obtain ⟨hr, c, hd⟩ | ⟨hr, hd, hwhy⟩ | ⟨hr, i, hd, hi, hq⟩ := issueWord_refused h
    · exact .inl ⟨hr, w, c, rfl, hd⟩
    · exact .inr (.inl ⟨hr, w, rfl, hd, by simpa using hwhy⟩)
    · exact .inr (.inr (.inl ⟨hr, w, i, rfl, hd, hi, by simpa using hq⟩))
  | main =>
    rw [ht] at h
    obtain ⟨hr, hq, hf⟩ := microStep_refused h
    exact .inr (.inr (.inr (.inr ⟨hr, rfl, by simpa using hq, by simpa using hf⟩)))
  | irq =>
    rw [ht] at h
    obtain ⟨hd, h⟩ := evDispatch_refused h
    obtain ⟨hr, h0, h1, hw⟩ := takeInterrupt_refused h
    simp only [State.dropTurn_slot, State.dropTurn_cfg] at h0 h1 hw
    exact .inr (.inr (.inr (.inl ⟨hr, rfl, by simpa using hd, h0, h1, hw⟩)))
  | clk | echo | gie => rw [ht] at h; nomatch h

/-- Settles O7: the listed turn runs, and the port is free. -/
theorem stepRunsThePresentedCommand : Obligations.StepRunsThePresentedCommand := by
  intro s w i ts hts hq hd
  rw [step_of_turns hts, runTurn, issueWord_free (s := s.setTurns ts) hd hq]

theorem decode_of_decodeTableWord {n w : Nat} {i : Instr} (h : decodeTableWord n w = some i) :
    decode (tableWord n w) = .ok i := by
  unfold decodeTableWord at h
  split at h <;> simp_all

/-- Settles O8: the presented word is the first listed turn of a free MAIN. -/
theorem presentedTableWordRunsNext : Obligations.PresentedTableWordRunsNext := by
  intro s w i h
  rw [State.withFetchWord, step_of_turns (s.present_turns _), runTurn,
    issueWord_free (decode_of_decodeTableWord h) rfl]
  rfl

/-- Settles O9, by the two cases of the schedule. -/
theorem stepTakesTheNextTurn : Obligations.StepTakesTheNextTurn :=
  ⟨fun _ _ _ => step_of_turns, fun s h => by simp [step, State.nextTurn, State.dropTurn, h]⟩

/-- Settles O10: MAIN without a step is idle or waits at RD6. -/
theorem disabledAgentsChangeNothing : Obligations.DisabledAgentsChangeNothing := by
  intro t s h hw
  cases t with
  | issue w => exact absurd rfl (hw w)
  | main =>
    by_cases hq : s.seq = .none
    · simp only [runTurn, microStep, hq]
    · have hwait : s.seq = .rd6 ∧ s.phase ≠ Phase.ready.code := by
        simpa [turnEnabled, State.busy, hq, State.ready] using h
      exact microStep_rd6_hold hwait.1 hwait.2
  | irq => exact if_neg (Bool.eq_false_iff.1 h)
  | clk => exact congrArg _ (evTick_stopped h)
  | echo | gie => nomatch h

/-- Settles O11: the port refuses every command while SEQ is not NONE. -/
theorem busyBlockAcceptsNoCommand : Obligations.BusyBlockAcceptsNoCommand := by
  intro s w i ts hts hq hd
  rw [step_of_turns hts, runTurn, issueWord_busy (s := s.setTurns ts) hd hq]
  exact ⟨fun hi => by rw [hi]; rfl, fun hi => by rw [busyRefusal_of_ne hi]⟩

end Sys2Proof.Machine

/-! ## Proofs: the invariants of every step, and who writes what (spec/10_state.md, spec/42_echo_ranging.md)

One lemma per piece of state naming its writers among the effects of a turn, one lemma per invariant that each
effect keeps; then the obligations assembled from them. -/

namespace Sys2Proof.Machine

/-! ### Taking a turn off the schedule is not seen -/

@[simp] theorem State.dropTurn_clocked (s : State) : s.dropTurn.clocked = s.clocked := by
  simp [State.clocked]

@[simp] theorem State.dropTurn_recognizes (s : State) (pol : Edge) :
    s.dropTurn.recognizes pol = s.recognizes pol := by
  simp [State.recognizes]

@[simp] theorem sessionInv_dropTurn {s : State} : SessionInv s.dropTurn ↔ SessionInv s := by simp [SessionInv]

@[simp] theorem pendingIsClocked_dropTurn {s : State} : PendingIsClocked s.dropTurn ↔ PendingIsClocked s := by
  simp [PendingIsClocked]

@[simp] theorem triggerFits_dropTurn {s : State} : TriggerFits s.dropTurn ↔ TriggerFits s := by
  simp [TriggerFits]

/-! ### The writers of each piece -/

theorem Effect.cfg_eq {t : Turn} {s u : State} (he : Effect t s u) : u.cfg = s.cfg := by
  cases he <;> rfl

/-- ICF is set by a recognized edge, and cleared by a dispatch and by ICU_INIT (R16). -/
theorem Effect.icf_cases {t : Turn} {s u : State} (he : Effect t s u) :
    u.icf = s.icf ∨
    (u.icf = true ∧ ∃ pol, t = .echo pol ∧ s.recognizes pol = true ∧ u.icr = s.tcnt) ∨
    (u.icf = false ∧ ((t = .irq ∧ s.dispatchEnabled = true) ∨ (t = .main ∧ s.seq = .ui1) ∨
      ∃ w e p, t = .issue w ∧ decode w = .ok (.icuInit e p))) := by
  cases he with
  | issueInit hd => exact .inr (.inr ⟨rfl, .inr (.inr ⟨_, _, _, rfl, hd⟩)⟩)
  | ui1 hq => exact .inr (.inr ⟨rfl, .inr (.inl ⟨rfl, hq⟩)⟩)
  | irqEmpty hd | irqRising hd | irqFalling hd | irqIgnored hd | irqForeign _ _ _ hd =>
    exact .inr (.inr ⟨rfl, .inl ⟨rfl, hd⟩⟩)
  | latch hr => exact .inr (.inl ⟨rfl, _, rfl, hr, rfl⟩)
  | _ => exact .inl rfl

/-- PRESC is written by ICU_INIT, issued or as UI1 (R13). -/
theorem Effect.presc_cases {t : Turn} {s u : State} (he : Effect t s u) :
    u.presc = s.presc ∨ (t = .main ∧ s.seq = .ui1 ∧ u.presc = s.cfg.presc) ∨
      ∃ w e p, t = .issue w ∧ decode w = .ok (.icuInit e p) ∧ u.presc = p := by
  cases he with
  | issueInit hd => exact .inr (.inr ⟨_, _, _, rfl, hd, rfl⟩)
  | ui1 hq => exact .inr (.inl ⟨rfl, hq, rfl⟩)
  | _ => exact .inl rfl

/-- ICIE is set by ICU_INIT, issued or as UI1, and cleared by ICU_DEINIT (R15). -/
theorem Effect.icie_cases {t : Turn} {s u : State} (he : Effect t s u) :
    u.icie = s.icie ∨
    (u.icie = true ∧ ((t = .main ∧ s.seq = .ui1) ∨ ∃ w e p, t = .issue w ∧ decode w = .ok (.icuInit e p))) ∨
    (u.icie = false ∧ ∃ w, t = .issue w ∧ decode w = .ok .icuDeinit) := by
  cases he with
  | issueInit hd => exact .inr (.inl ⟨rfl, .inr ⟨_, _, _, rfl, hd⟩⟩)
  | ui1 hq => exact .inr (.inl ⟨rfl, .inl ⟨rfl, hq⟩⟩)
  | issueDeinit hd => exact .inr (.inr ⟨rfl, _, rfl, hd⟩)
  | _ => exact .inl rfl

theorem Effect.trigDir_cases {t : Turn} {s u : State} (he : Effect t s u) :
    u.trigDir = s.trigDir ∨ (t = .main ∧ s.seq = .ui3 ∧ u.trigDir = .output) := by
  cases he with
  | ui3 hq => exact .inr ⟨rfl, hq, rfl⟩
  | _ => exact .inl rfl

theorem Effect.gie_cases {t : Turn} {s u : State} (he : Effect t s u) : u.gie = s.gie ∨ t = .gie u.gie := by
  cases he with
  | gie b => exact .inr rfl
  | _ => exact .inl rfl

/-- PW is written by the falling-edge branch of H_ECHO alone (R20). -/
theorem Effect.pw_cases {t : Turn} {s u : State} (he : Effect t s u) (hwf : Memory.wf s.mem = true) :
    (u.byte .pwLo = s.byte .pwLo ∧ u.byte .pwHi = s.byte .pwHi) ∨
    (t = .irq ∧ s.dispatchEnabled = true ∧ s.slot = Config.hEcho ∧ s.phase = Phase.wff.code ∧
      u.pw = s.icr ∧ u.phase = Phase.ready.code) := by
  cases he with
  | rd4 | rd8 | irqRising => exact .inl ⟨State.setPhase_pwLo _ _, State.setPhase_pwHi _ _⟩
  | irqFalling hd hs hp =>
    obtain ⟨hpw, -, hphase⟩ := State.onEdge_effect_wff (s := s.enterInterrupt) hwf hp
    rw [State.onEdge_wff (s := s.enterInterrupt) hp] at hpw hphase
    exact .inr ⟨rfl, hd, hs, hp, hpw, hphase⟩
  | _ => exact .inl ⟨rfl, rfl⟩

/-- ILOG is written by a dispatch with a handler in SLOT (R30, R82). -/
theorem Effect.ilog_cases {t : Turn} {s u : State} (he : Effect t s u) :
    u.ilog = s.ilog ∨ (u.ilog = s.ilog ++ [s.slot] ∧ s.slot ≠ 0 ∧ t = .irq ∧ s.dispatchEnabled = true) := by
  cases he with
  | irqEmpty hd h0 => exact .inl (if_pos h0)
  | irqRising hd h1 | irqFalling hd h1 | irqIgnored hd h1 =>
    have h0 : s.slot ≠ 0#4 := by rw [h1]; decide
    exact .inr ⟨if_neg h0, h0, rfl, hd⟩
  | irqForeign _ _ _ hd h0 => exact .inr ⟨if_neg h0, h0, rfl, hd⟩
  | _ => exact .inl rfl

/-! ### The invariants -/

theorem Effect.keeps_wf {t : Turn} {s u : State} (he : Effect t s u) (hwf : Memory.wf s.mem = true) :
    Memory.wf u.mem = true := by
  cases he with
  | rd4 | rd8 | irqRising => exact State.setPhase_wf hwf _
  | irqFalling => exact State.setPhase_wf (s := (State.setPw _ _).setEdge _) (State.setPw_wf hwf _) _
  | _ => exact hwf

/-- PHASE is a waiting phase only from RD5 to RD6 (R126). -/
theorem phaseFits.waiting {q : Seq} {b : Byte} (h : phaseFits q b)
    (hb : b = Phase.wfr.code ∨ b = Phase.wff.code) : q = .rd5 ∨ q = .rd6 := by
  obtain rfl | rfl := hb <;> cases q <;> simp [phaseFits, Phase.code] at h ⊢

/-- From RD5 to RD6 every phase but IDLE fits. -/
theorem phaseFits_of_waiting {q : Seq} {b : Byte} (hq : q = .rd5 ∨ q = .rd6)
    (hb : b = Phase.wfr.code ∨ b = Phase.wff.code ∨ b = Phase.ready.code) : phaseFits q b := by
  obtain rfl | rfl := hq <;> exact hb

theorem Effect.keeps_phaseFits {t : Turn} {s u : State} (he : Effect t s u) (hwf : Memory.wf s.mem = true)
    (hf : phaseFits s.seq s.phase) : phaseFits u.seq u.phase := by
  cases he with
  | rd4 => exact .inl (State.setPhase_phase hwf _)
  | rd8 => exact State.setPhase_phase hwf _
  | irqRising _ _ hp =>
    exact phaseFits_of_waiting (hf.waiting (.inl hp)) (.inr (.inl (State.setPhase_phase hwf _)))
  | irqFalling _ _ hp =>
    exact phaseFits_of_waiting (hf.waiting (.inr hp))
      (.inr (.inr (State.setPhase_phase (s := (State.setPw _ _).setEdge _) (State.setPw_wf hwf _) _)))
  | issueUsInit _ hq | ui1 hq | ui2 hq | ui3 hq | rd1 hq | rd2 hq | rd3 hq | rd5 hq | rd7 hq | rd9 hq =>
    rw [hq] at hf; exact hf
  | issueRead _ _ hp | rd6Go _ hp => exact hp
  | _ => exact hf

theorem Effect.keeps_sessionInv {t : Turn} {s u : State} (he : Effect t s u) (hs : SessionInv s) :
    SessionInv u := by
  obtain ⟨hwf, hf⟩ := hs
  exact ⟨he.keeps_wf hwf, he.keeps_phaseFits hwf hf⟩

theorem Effect.keeps_pendingIsClocked {t : Turn} {s u : State} (he : Effect t s u) (hs : PendingIsClocked s) :
    PendingIsClocked u := by
  cases he with
  | latch hr => exact fun _ => (Bool.and_eq_true_iff.1 hr).1
  | issueInit | ui1 | irqEmpty | irqRising | irqFalling | irqIgnored | irqForeign => exact nofun
  | _ => exact hs

/-- The trigger stays as it should when TRIG is kept and MAIN neither enters nor leaves the hold of RD1 to RD3. -/
theorem TriggerFits.of_same {s u : State} (h : TriggerFits s) (ht : u.trig = s.trig)
    (hq : u.seq = .rd2 ∨ u.seq = .rd3 ↔ s.seq = .rd2 ∨ s.seq = .rd3) : TriggerFits u := by
  rw [TriggerFits, ht, hq]
  exact h

theorem Effect.keeps_triggerFits {t : Turn} {s u : State} (he : Effect t s u) (hs : TriggerFits s) :
    TriggerFits u := by
  cases he with
  | rd1 => exact ⟨fun _ => .inl rfl, fun _ => rfl⟩
  | rd3 => exact ⟨nofun, by simp [stepRD3]⟩
  | issueUsInit _ hq | issueRead _ hq | ui1 hq | ui2 hq | ui3 hq | rd2 hq | rd4 hq | rd5 hq | rd6Go hq | rd7 hq
  | rd8 hq | rd9 hq =>
    exact hs.of_same rfl (by simp [hq, stepUI1, stepUI2, stepUI3, stepRD2, stepRD4, stepRD5, stepRD7, stepRD8])
  | _ => exact hs

/-! ### The obligations -/

/-- Settles O14: of the effects of a turn only RD4, RD8 and the two branches of H_ECHO write PHASE, and each
leaves MAIN where the new phase fits. -/
theorem stepKeepsSessionInvariant : Obligations.StepKeepsSessionInvariant :=
  fun _ _ hs h => (step_effect h).keeps_sessionInv (sessionInv_dropTurn.2 hs)

/-- Settles O15: an edge is recognized only by a clocked unit, and whoever writes PRESC clears ICF. -/
theorem stepKeepsPendingClocked : Obligations.StepKeepsPendingClocked :=
  fun _ _ hs h => (step_effect h).keeps_pendingIsClocked (pendingIsClocked_dropTurn.2 hs)

/-- Settles O16: TRIG is written by RD1 and RD3 alone. -/
theorem stepKeepsTriggerHold : Obligations.StepKeepsTriggerHold :=
  fun _ _ hs h => (step_effect h).keeps_triggerFits (triggerFits_dropTurn.2 hs)

/-- Settles O17: no effect writes `cfg`. -/
theorem stepKeepsTheParameters : Obligations.StepKeepsTheParameters :=
  fun s _ h => (step_effect h).cfg_eq.trans s.dropTurn_cfg

/-- Settles O18: the four writers of PHASE, with the phase that the invariant gives before RD4 and before RD8. -/
theorem phaseMovesOnlyAlongTheCycle : Obligations.PhaseMovesOnlyAlongTheCycle := by
  intro s u ⟨hwf, hfits⟩ h
  have hcases := (step_effect h).phase_cases (by simpa using hwf)
  simp only [State.dropTurn_phase, State.dropTurn_seq, State.dropTurn_slot, State.dropTurn_dispatchEnabled] at hcases
  obtain hsame | ⟨ht, hq, hu⟩ | hrise | hfall | ⟨ht, hq, hu⟩ := hcases
  · exact .inl hsame
  · rw [hq] at hfits
    exact .inr (.inl ⟨ht, hq, hfits, hu⟩)
  · exact .inr (.inr (.inl hrise))
  · exact .inr (.inr (.inr (.inl hfall)))
  · rw [hq] at hfits
    exact .inr (.inr (.inr (.inr ⟨ht, hq, hfits, hu⟩)))

/-- Settles O19, by the writers of PW. -/
theorem onlyTheFallingBranchWritesPw : Obligations.OnlyTheFallingBranchWritesPw := by
  intro s u hwf h
  simpa using (step_effect h).pw_cases (by simpa using hwf)

/-- Settles O20, by the writers of ICF. -/
theorem pendingFlagHasTheListedWriters : Obligations.PendingFlagHasTheListedWriters := by
  intro s u h
  have he := step_effect h
  refine ⟨fun h0 h1 => ?set, fun h1 h0 => ?cleared⟩
  case set => simpa [h0, h1] using he.icf_cases
  case cleared => simpa [h0, h1] using he.icf_cases

/-- Settles O21, by the writers of each of the four registers. -/
theorem controlRegistersHaveTheListedWriters : Obligations.ControlRegistersHaveTheListedWriters := by
  intro s u h
  have he := step_effect h
  refine ⟨fun hne => ?presc, fun h0 h1 => ?icieSet, fun h1 h0 => ?icieCleared, fun hne => ?trigDir, fun hne => ?gie⟩
  case presc => simpa using he.presc_cases.resolve_left (by simpa using hne)
  case icieSet => simpa [h0, h1] using he.icie_cases
  case icieCleared => simpa [h0, h1] using he.icie_cases
  case trigDir => simpa using he.trigDir_cases.resolve_left (by simpa using hne)
  case gie => exact he.gie_cases.resolve_left (by simpa using hne)

/-- Settles O1, by evaluation of the reset state. -/
theorem resetLeavesTheSpecsValues : Obligations.ResetLeavesTheSpecsValues :=
  ⟨rfl, rfl, rfl, rfl, rfl, rfl, rfl, rfl, rfl, rfl, rfl, rfl, rfl, rfl, rfl, fun _ => rfl, rfl, rfl⟩

/-- Settles O2: after reset MAIN is free, PHASE is IDLE, ICF is 0 and TRIG is low. -/
theorem resetMeetsTheInvariants : Obligations.ResetMeetsTheInvariants :=
  ⟨⟨rfl, rfl⟩, nofun, nofun, by simp [State.reset]⟩

end Sys2Proof.Machine

/-! ## Proofs: the capture unit's commands and events, and registration (spec/41_capture_unit.md,
spec/40_callback_registry.md)

When the unit is clocked and an edge recognized, and what a dispatch logs; then the obligations, each read off the
operation the command or event performs and that operation's frame. -/

namespace Sys2Proof.Machine

/-! ### The clock and the edges -/

theorem State.clocked_iff {s : State} : s.clocked = true ↔ s.presc ≠ .off := by
  unfold State.clocked
  cases s.presc <;> decide

theorem State.clocked_eq_false_iff {s : State} : s.clocked = false ↔ s.presc = .off := by
  rw [← Bool.not_eq_true, State.clocked_iff, not_not]

theorem State.recognizes_iff {s : State} {pol : Edge} :
    s.recognizes pol = true ↔ s.presc ≠ .off ∧ pol = s.edge := by
  simp [State.recognizes, State.clocked_iff]

theorem State.recognizes_eq_false_iff {s : State} {pol : Edge} :
    s.recognizes pol = false ↔ ¬ (s.presc ≠ .off ∧ pol = s.edge) := by
  rw [← Bool.not_eq_true, State.recognizes_iff]

theorem State.countUp_changesOnly (s : State) : ChangesOnly [.tcnt] s s.countUp := by
  intro f hf; cases f <;> simp_all [Piece.same]

theorem State.latch_changesOnly (s : State) : ChangesOnly [.icr, .icf] s s.latch := by
  intro f hf; cases f <;> simp_all [Piece.same]

theorem State.setGie_changesOnly (s : State) (b : Bool) : ChangesOnly [.gie] s (s.setGie b) := by
  intro f hf; cases f <;> simp_all [Piece.same]

/-- An unclocked unit neither counts nor latches (R100, R102). -/
theorem State.inert_of_off {s : State} (h : s.presc = .off) : evTick s = s ∧ ∀ pol, evEdge pol s = s :=
  ⟨evTick_stopped (State.clocked_eq_false_iff.2 h), fun _ =>
    evEdge_ignored (State.recognizes_eq_false_iff.2 fun hr => hr.1 h)⟩

theorem step_clk {s : State} {ts : List Turn} (hs : s.turns = .clk :: ts) (hc : s.clocked = true) :
    step s = .next (s.setTurns ts).countUp := by
  rw [step_of_turns hs, runTurn, evTick_clocked (s := s.setTurns ts) hc]

theorem step_echo {s : State} {ts : List Turn} {pol : Edge} (hs : s.turns = .echo pol :: ts)
    (hr : s.recognizes pol = true) : step s = .next (s.setTurns ts).latch := by
  rw [step_of_turns hs, runTurn, evEdge_recognized (s := s.setTurns ts) hr]

/-! ### What a dispatch logs -/

/-- A dispatch clears ICF, whatever the handler (R82). -/
theorem takeInterrupt_icf {s t : State} (h : takeInterrupt s = .next t) : t.icf = false := by
  obtain ⟨-, rfl⟩ | ⟨-, rfl⟩ | ⟨-, -, hbody⟩ := takeInterrupt_next h
  · rfl
  · simp
  · exact runBody_changesOnly hbody .icf (by decide)

/-- A dispatch logs the handler in SLOT, also when its body registers another (R82, R86). -/
theorem takeInterrupt_ilog {s t : State} (h : takeInterrupt s = .next t) (h0 : s.slot ≠ 0#4) :
    t.ilog = s.ilog ++ [s.slot] := by
  have hentry : s.enterInterrupt.ilog = s.ilog ++ [s.slot] := if_neg h0
  rw [← hentry]
  obtain ⟨hslot, -⟩ | ⟨-, rfl⟩ | ⟨-, -, hbody⟩ := takeInterrupt_next h
  · exact absurd hslot h0
  · exact State.onEdge_ilog _
  · exact runBody_changesOnly hbody .ilog (by decide)

/-! ### The obligations -/

/-- Settles O22: the command is `State.initUnit`, and an unclocked unit is inert. -/
theorem icuInitArmsTheUnit : Obligations.IcuInitArmsTheUnit := fun e p s =>
  ⟨s.initUnit e p, rfl, rfl, rfl, rfl, rfl, rfl, rfl, s.initUnit_changesOnly e p, fun hp => State.inert_of_off hp⟩

/-- Settles O23: the command is `State.setEdge`. -/
theorem icuSetEdgeWritesThePolarity : Obligations.IcuSetEdgeWritesThePolarity := fun e s =>
  ⟨s.setEdge e, rfl, rfl, s.setEdge_changesOnly e, fun h => by rw [← h]; rfl⟩

/-- Settles O24: the command is `State.respond`, which leaves ICR for the second read. -/
theorem icuGetCaptureRespondsTheLatch : Obligations.IcuGetCaptureRespondsTheLatch := fun s =>
  ⟨s.respond s.icr, (s.respond s.icr).respond s.icr, rfl, rfl, s.respond_changesOnly _, rfl, by simp⟩

/-- Settles O25: the command is `State.clearCounter`, which leaves the clock as it is. -/
theorem icuClearCounterZeroesTheCounter : Obligations.IcuClearCounterZeroesTheCounter := by
  refine fun s => ⟨s.clearCounter, rfl, rfl, s.clearCounter_changesOnly, fun hon => ?_, fun hoff => ?_⟩
  · rw [evTick_clocked (s := s.clearCounter) (State.clocked_iff.2 hon)]
    rfl
  · rw [evTick_stopped (s := s.clearCounter) (State.clocked_eq_false_iff.2 hoff)]
    rfl

/-- Settles O26: the command is `State.setSlot`, and a dispatch logs the handler then in SLOT. -/
theorem icuRegisterReplacesTheHandler : Obligations.IcuRegisterReplacesTheHandler := by
  refine ⟨fun h s hne => ⟨s.setSlot h, if_neg hne, rfl, s.setSlot_changesOnly h, fun hs => by rw [← hs]; rfl,
    fun u hu => takeInterrupt_ilog hu hne, fun w hd => ?_⟩, fun _ => rfl⟩
  simp only [handlerWord, hd]

/-- Settles O27: the command is `State.deinitUnit`; ICIE = 0 disables the dispatch alone. -/
theorem icuDeinitDisablesNotification : Obligations.IcuDeinitDisablesNotification := by
  refine fun s => ⟨s.deinitUnit, rfl, rfl, rfl, s.deinitUnit_changesOnly, ?_, fun pol hr => ?_, fun hc => ?_⟩
  · simp [turnEnabled, State.dispatchEnabled]
  · rw [evEdge_recognized (s := s.deinitUnit) hr]
    exact ⟨rfl, rfl⟩
  · rw [evTick_clocked (s := s.deinitUnit) hc]
    rfl

/-- Settles O29: the event is `State.countUp` while the unit is clocked. -/
theorem tickCountsModuloTheWidth : Obligations.TickCountsModuloTheWidth := by
  refine fun s => ⟨State.clocked_iff, fun hon => ⟨s.countUp, ?_, ?_, s.countUp_changesOnly⟩, fun hoff => ?_⟩
  · rw [runTurn, evTick_clocked (State.clocked_iff.2 hon)]
  · simp [BitVec.toNat_add]
  · rw [runTurn, (State.inert_of_off hoff).1]

/-- Settles O30: the event is `State.latch` when the edge is recognized. -/
theorem recognizedEdgeLatches : Obligations.RecognizedEdgeLatches := by
  refine fun pol s => ⟨fun h => ⟨s.latch, ?_, rfl, rfl, s.latch_changesOnly⟩, fun h => ?_⟩
  · rw [runTurn, evEdge_recognized (State.recognizes_iff.2 h)]
  · rw [runTurn, evEdge_ignored (State.recognizes_eq_false_iff.2 h)]

/-- Settles O31: the event is `State.setGie`. -/
theorem gieIsTheEnvironments : Obligations.GieIsTheEnvironments := fun b s =>
  ⟨s.setGie b, rfl, rfl, s.setGie_changesOnly b⟩

/-- Settles O32: each order is two listed turns, and neither changes what the other needs. -/
theorem tickAndEdgeInEitherOrder : Obligations.TickAndEdgeInEitherOrder := by
  intro s ts hon
  have hc := State.clocked_iff.2 hon
  have hr : s.recognizes s.edge = true := State.recognizes_iff.2 ⟨hon, rfl⟩
  constructor
  · intro hts
    have h₁ := step_echo hts hr
    have h₂ := step_clk (s := (s.setTurns (.clk :: ts)).latch) rfl hc
    exact ⟨_, by rw [runFor_succ h₁, runFor_one h₂], rfl, rfl, rfl⟩
  · intro hts
    have h₁ := step_clk hts hc
    have h₂ := step_echo (s := (s.setTurns (.echo s.edge :: ts)).countUp) rfl hr
    exact ⟨_, by rw [runFor_succ h₁, runFor_one h₂], rfl, rfl, rfl⟩

end Sys2Proof.Machine

/-! ## Proofs: dispatches along a run (spec/40_callback_registry.md, spec/20_memory.md)

When a dispatch is taken and what it does with an empty slot or a foreign handler; ILOG and PW along a run; then the
obligations assembled from them. -/

namespace Sys2Proof.Machine

/-- With an empty slot the entry logs nothing (R82). -/
theorem enterInterrupt_changesOnly_empty {s : State} (h0 : s.slot = 0#4) : ChangesOnly [.icf] s s.enterInterrupt := by
  intro f hf
  by_cases hl : f = .ilog
  · subst hl
    exact if_pos h0
  · exact s.enterInterrupt_changesOnly f (by simp_all)

theorem enterInterrupt_of_slot {s : State} (h0 : s.slot ≠ 0#4) :
    s.enterInterrupt = { s with icf := false, ilog := s.ilog ++ [s.slot] } := by
  simp [State.enterInterrupt, h0]

theorem State.dispatchEnabled_of_gie {s : State} (h : s.gie = false) : s.dispatchEnabled = false := by
  simp [State.dispatchEnabled, h]

theorem runTurn_irq_enabled {s : State} (h : s.dispatchEnabled = true) : runTurn .irq s = takeInterrupt s :=
  if_pos h

theorem runTurn_irq_disabled {s : State} (h : s.dispatchEnabled = false) : runTurn .irq s = .next s :=
  if_neg (Bool.eq_false_iff.1 h)

/-- Along a run only the handlers that stood in SLOT are logged (R86). -/
theorem ReachesVia.logs_slots {P : HandlerId → Prop} {s t : State} (h : ReachesVia (fun u => P u.slot) s t) :
    ∃ l, t.ilog = s.ilog ++ l ∧ ∀ k ∈ l, P k := by
  induction h with
  | refl => exact ⟨[], by simp, by simp⟩
  | @tail t u _ hp hstep ih =>
    obtain ⟨l, hl, hall⟩ := ih
    obtain hsame | ⟨hlog, -⟩ := (step_effect hstep).ilog_cases
    · exact ⟨l, by rw [hsame, State.dropTurn_ilog, hl], hall⟩
    · refine ⟨l ++ [t.slot], by simp [hlog, hl], fun k hk => ?_⟩
      obtain hk | rfl : k ∈ l ∨ k = t.slot := by simpa using hk
      · exact hall k hk
      · exact hp

/-- A turn taken while GIE = 0 logs nothing and leaves PW alone; GIE stays 0 unless the turn sets it (R51). -/
theorem Effect.of_gie_false {t : Turn} {s u : State} (he : Effect t s u) (hwf : Memory.wf s.mem = true)
    (hg : s.gie = false) (ht : t ≠ .gie true) : u.gie = false ∧ u.ilog = s.ilog ∧ u.pw = s.pw := by
  have hd : s.dispatchEnabled ≠ true := by simp [State.dispatchEnabled_of_gie hg]
  refine ⟨?gie, ?ilog, ?pw⟩
  case gie =>
    obtain hsame | hset := he.gie_cases
    · rw [hsame, hg]
    · cases hu : u.gie with
      | false => rfl
      | true => exact absurd (hu ▸ hset) ht
  case ilog => exact he.ilog_cases.resolve_right fun ⟨_, _, _, h⟩ => hd h
  case pw =>
    obtain ⟨hlo, hhi⟩ := (he.pw_cases hwf).resolve_right fun ⟨_, h, _⟩ => hd h
    rw [State.pw, State.pw, hlo, hhi]

theorem ReachesVia.of_gie_false {s t : State} (hwf : Memory.wf s.mem = true) (hg : s.gie = false)
    (h : ReachesVia (fun u => u.nextTurn ≠ .gie true) s t) :
    Memory.wf t.mem = true ∧ t.gie = false ∧ t.ilog = s.ilog ∧ t.pw = s.pw := by
  induction h with
  | refl => exact ⟨hwf, hg, rfl, rfl⟩
  | @tail t u _ hp hstep ih =>
    obtain ⟨htwf, htg, htl, htp⟩ := ih
    have he := step_effect hstep
    have hdwf : Memory.wf t.dropTurn.mem = true := by simpa using htwf
    obtain ⟨hug, hul, hup⟩ := he.of_gie_false hdwf (by simpa using htg) hp
    exact ⟨he.keeps_wf hdwf, hug, by rw [hul, State.dropTurn_ilog, htl], by rw [hup, State.dropTurn_pw, htp]⟩

/-! ### The obligations -/

/-- Settles O33: the condition is `State.dispatchEnabled`, and the entry of the interrupt clears ICF. -/
theorem dispatchNeedsAllThreeEnables : Obligations.DispatchNeedsAllThreeEnables := by
  refine fun s => ⟨State.dispatchEnabled_iff, fun hnot => ?_, fun hall =>
    ⟨runTurn_irq_enabled (State.dispatchEnabled_iff.2 hall), fun _ => takeInterrupt_icf,
      fun h0 => ⟨_, takeInterrupt_empty h0, rfl, enterInterrupt_changesOnly_empty h0⟩⟩⟩
  exact runTurn_irq_disabled (Bool.eq_false_iff.2 (mt State.dispatchEnabled_iff.1 hnot))

/-- Settles O37: the body runs on the state the entry leaves, and its words are the four allowed commands. -/
theorem foreignBodyRunsAllowedWordsOnly : Obligations.ForeignBodyRunsAllowedWordsOnly := by
  refine ⟨fun s h0 h1 => ?_, runBody_nil, fun w ws s t => runBody_cons, fun w i s => handlerWord_of_allowed⟩
  have htake := takeInterrupt_foreign h0 h1
  refine ⟨by rw [htake, enterInterrupt_of_slot h0], fun hall => ?_, fun hbad => ?_⟩
  · obtain ⟨t, ht⟩ := runBody_allowed_next s.enterInterrupt hall
    have hnext := htake.trans ht
    exact ⟨t, hnext, takeInterrupt_icf hnext, takeInterrupt_ilog hnext h0,
      s.enterInterrupt_changesOnly.trans (runBody_changesOnly ht)⟩
  · rw [htake, runBody_of_not_allowed _ hbad]

/-- Settles O38, by the writers of ILOG. -/
theorem dispatchLogsTheHandlerInTheSlot : Obligations.DispatchLogsTheHandlerInTheSlot := by
  intro s u h
  simpa using (step_effect h).ilog_cases

/-- Settles O39: a dispatch logs the handler in SLOT when it is taken, not when the edge came. -/
theorem replacedHandlerIsNeverInvoked : Obligations.ReplacedHandlerIsNeverInvoked := by
  intro h1 s t h
  obtain ⟨l, hl, hall⟩ := h.logs_slots (P := (· ≠ h1))
  exact ⟨l, hl, fun hm => hall h1 hm rfl⟩

/-- Settles O40, by induction on the run. -/
theorem criticalSectionHasNoDispatch : Obligations.CriticalSectionHasNoDispatch := fun _ _ hwf hg h =>
  (h.of_gie_false hwf hg).2

end Sys2Proof.Machine

/-! ## Proofs: the composite commands' steps and the wait (spec/42_echo_ranging.md)

The micro-steps of US_INIT, of the trigger and of the response; what can happen to the block while MAIN waits at
RD6; then the obligations assembled from them. -/

namespace Sys2Proof.Machine

/-! ### Micro-steps -/

theorem ChangesOnly.refl {fs : List Piece} (s : State) : ChangesOnly fs s s := fun f _ => by cases f <;> rfl

theorem State.setTrig_changesOnly (s : State) (b : Bool) : ChangesOnly [.trig] s (s.setTrig b) := by
  intro f hf; cases f <;> simp_all [Piece.same]

theorem State.setTrigDir_changesOnly (s : State) (d : PinDir) : ChangesOnly [.trigDir] s (s.setTrigDir d) := by
  intro f hf; cases f <;> simp_all [Piece.same]

theorem State.setTurns_changesOnly (s : State) (ts : List Turn) : ChangesOnly [.turns] s (s.setTurns ts) := by
  intro f hf; cases f <;> simp_all [Piece.same]

theorem stepUI1_changesOnly (s : State) :
    ChangesOnly [.presc, .edge, .tcnt, .icr, .icf, .icie, .seq] s (stepUI1 s) :=
  (s.initUnit_changesOnly _ _).trans (State.goto_changesOnly _ _)

theorem stepUI2_changesOnly (s : State) : ChangesOnly [.slot, .seq] s (stepUI2 s) :=
  (s.setSlot_changesOnly _).trans (State.goto_changesOnly _ _)

theorem stepUI3_changesOnly (s : State) : ChangesOnly [.trigDir, .seq] s (stepUI3 s) :=
  (s.setTrigDir_changesOnly _).trans (State.goto_changesOnly _ _)

theorem microStep_ui1 {s : State} (hq : s.seq = .ui1) : microStep s = .next (stepUI1 s) := by
  simp only [microStep, hq]

theorem microStep_ui2 {s : State} (hq : s.seq = .ui2) : microStep s = .next (stepUI2 s) := by
  simp only [microStep, hq]

theorem microStep_ui3 {s : State} (hq : s.seq = .ui3) : microStep s = .next (stepUI3 s) := by
  simp only [microStep, hq]

theorem microStep_rd1 {s : State} (hq : s.seq = .rd1) : microStep s = .next (stepRD1 s) := by
  simp only [microStep, hq]

theorem microStep_rd2 {s : State} (hq : s.seq = .rd2) : microStep s = .next (stepRD2 s) := by
  simp only [microStep, hq]

theorem microStep_rd3 {s : State} (hq : s.seq = .rd3) : microStep s = .next (stepRD3 s) := by
  simp only [microStep, hq]

theorem microStep_rd5 {s : State} (hq : s.seq = .rd5) : microStep s = .next (stepRD5 s) := by
  simp only [microStep, hq]

theorem microStep_rd9 {s : State} (hq : s.seq = .rd9) (hf : s.cfg.fCpuHz ≠ 0) :
    microStep s =
      .next ((s.respond (convert s.rdtmp (divisor s.presc) s.cfg.fCpuHz s.cfg.calOffset)).goto .none) := by
  simp only [microStep, hq]
  exact if_neg hf

theorem execUsInit_free {s : State} (hq : s.seq = .none) : execUsInit s = .next (s.goto .ui1) := by
  simp [execUsInit, State.busy, hq]

theorem execUsReadDistance_free {s : State} (hq : s.seq = .none) (hp : s.phase = Phase.idle.code) :
    execUsReadDistance s = .next (s.goto .rd1) := by
  simp [execUsReadDistance, State.busy, hq, hp]

/-- A listed turn of MAIN is its micro-step. -/
theorem step_main {s u : State} {ts : List Turn} (hs : s.turns = .main :: ts)
    (h : microStep (s.setTurns ts) = .next u) : step s = .next u := by
  rw [step_of_turns hs, runTurn, h]

/-- A listed turn that presents a command to a free MAIN carries it out. -/
theorem step_issue {s u : State} {w : Byte} {i : Instr} {ts : List Turn} (hs : s.turns = .issue w :: ts)
    (hd : decode w = .ok i) (hq : s.seq = .none) (h : exec i (s.setTurns ts) = .next u) : step s = .next u := by
  rw [step_of_turns hs, runTurn, issueWord_free (s := s.setTurns ts) hd hq, h]

/-! ### What can happen while MAIN waits at RD6 -/

/-- The turns taken while MAIN is at RD6: the end of the wait, a dispatch, an edge, a tick or a change of GIE. -/
theorem runTurn_at_rd6 {t : Turn} {s u : State} (hq : s.seq = .rd6) (h : runTurn t s = .next u) :
    (s.phase = Phase.ready.code ∧ u = s.goto .rd7) ∨
    (s.dispatchEnabled = true ∧ takeInterrupt s = .next u) ∨
    (∃ pol, t = .echo pol ∧ s.recognizes pol = true ∧ u = s.latch) ∨
    ChangesOnly [.tcnt, .gie] s u := by
  have he := effect_of_runTurn h
  cases t with
  | issue w => exact absurd (hq.symm.trans he.seq_eq_none_of_issue) (by decide)
  | main =>
    by_cases hp : s.phase = Phase.ready.code
    · rw [runTurn, microStep_rd6_ready hq hp] at h
      injection h with h
      exact .inl ⟨hp, h.symm⟩
    · rw [runTurn, microStep_rd6_hold hq hp] at h
      injection h with h
      exact .inr (.inr (.inr (h ▸ .refl s)))
  | irq =>
    cases hd : s.dispatchEnabled with
    | true => exact .inr (.inl ⟨rfl, by rwa [runTurn_irq_enabled hd] at h⟩)
    | false =>
      rw [runTurn_irq_disabled hd] at h
      injection h with h
      exact .inr (.inr (.inr (h ▸ .refl s)))
  | clk =>
    cases he with
    | tick => exact .inr (.inr (.inr (s.countUp_changesOnly.mono (by decide))))
    | tickIdle => exact .inr (.inr (.inr (.refl s)))
  | echo pol =>
    cases he with
    | latch hr => exact .inr (.inr (.inl ⟨pol, rfl, hr, rfl⟩))
    | edgeIgnored => exact .inr (.inr (.inr (.refl s)))
  | gie b =>
    cases he with
    | gie => exact .inr (.inr (.inr ((s.setGie_changesOnly b).mono (by decide))))

/-- While no dispatch is enabled and PHASE is not READY, a waiting MAIN sees at most a recognized edge, ticks and
changes of GIE. -/
theorem runTurn_quiet_at_rd6 {t : Turn} {s u : State} (hq : s.seq = .rd6) (hp : s.phase ≠ Phase.ready.code)
    (hd : s.dispatchEnabled = false) (h : runTurn t s = .next u) :
    (∃ pol, t = .echo pol ∧ s.recognizes pol = true ∧ u = s.latch) ∨ ChangesOnly [.tcnt, .gie] s u := by
  obtain ⟨hready, -⟩ | ⟨hd', -⟩ | hlatch | hframe := runTurn_at_rd6 hq h
  · exact absurd hready hp
  · exact nomatch hd.symm.trans hd'
  · exact .inl hlatch
  · exact .inr hframe

/-- The same of a step, with a turn taken off the schedule. -/
theorem step_quiet_at_rd6 {s u : State} (hq : s.seq = .rd6) (hp : s.phase ≠ Phase.ready.code)
    (hd : s.dispatchEnabled = false) (h : step s = .next u) :
    (∃ pol, s.nextTurn = .echo pol ∧ s.recognizes pol = true ∧ u = s.dropTurn.latch) ∨
      ChangesOnly [.tcnt, .gie] s.dropTurn u := by
  simpa using runTurn_quiet_at_rd6 (s := s.dropTurn) (by simpa using hq) (by simpa using hp) (by simpa using hd) h

/-- MAIN waits for ever along a run on which no dispatch of H_ECHO is enabled: `J` is what the run keeps, `P` what
it is given at each step. -/
theorem ReachesVia.waits {P J : State → Prop} {s t : State} (h : ReachesVia P s t) (hwf : Memory.wf s.mem = true)
    (hq : s.seq = .rd6) (hp : s.phase ≠ Phase.ready.code) (hJ : J s)
    (hno : ∀ v, J v → P v → v.dispatchEnabled = true → v.slot ≠ Config.hEcho)
    (hkeep : ∀ v u, v.seq = .rd6 → v.phase ≠ Phase.ready.code → J v → P v → step v = .next u → J u) :
    t.seq = .rd6 ∧ t.phase ≠ Phase.ready.code ∧ t.resp = s.resp := by
  suffices hall : J t ∧ Memory.wf t.mem = true ∧ t.seq = .rd6 ∧ t.phase ≠ Phase.ready.code ∧ t.resp = s.resp by
    obtain ⟨-, -, hwait⟩ := hall
    exact hwait
  induction h with
  | refl => exact ⟨hJ, hwf, hq, hp, rfl⟩
  | @tail v u _ hPv hstep ih =>
    obtain ⟨hJv, hvwf, hvq, hvp, hvr⟩ := ih
    have he := step_effect hstep
    have hdwf : Memory.wf v.dropTurn.mem = true := by simpa using hvwf
    obtain ⟨huq, hur⟩ := runTurn_holds_at_rd6 (s := v.dropTurn) (by simpa using hvq) (by simpa using hvp) hstep
    refine ⟨hkeep v u hvq hvp hJv hPv hstep, he.keeps_wf hdwf, huq, fun hup => ?_, by simp [hur, hvr]⟩
    obtain ⟨-, hd, hslot, -⟩ := he.falling_of_becomes_ready hdwf (by simpa using hvp) hup
    exact hno v hJv hPv (by simpa using hd) (by simpa using hslot)

/-! ### The armed polarity (R121) -/

theorem ArmedFits.of_same {s u : State} (h : ArmedFits s) (hp : u.phase = s.phase) (he : u.edge = s.edge) :
    ArmedFits u := by
  rw [ArmedFits, hp, he]
  exact h

/-- Each branch of H_ECHO arms the polarity that the phase it brings waits for (R121). -/
theorem ArmedFits.onEdge {s : State} (hwf : Memory.wf s.mem = true) (h : ArmedFits s) : ArmedFits s.onEdge := by
  by_cases hr : s.phase = Phase.wfr.code
  · obtain ⟨-, hedge, hphase⟩ := State.onEdge_effect_wfr hwf hr
    exact ⟨fun _ => hedge, fun hne => absurd hphase hne⟩
  · by_cases hf : s.phase = Phase.wff.code
    · obtain ⟨-, hedge, hphase⟩ := State.onEdge_effect_wff hwf hf
      exact ⟨fun hp => absurd (hphase.symm.trans hp) (by decide), fun _ => hedge⟩
    · rwa [State.onEdge_ignored hr hf]

/-- A turn taken while MAIN waits with H_ECHO registered keeps both (R50, R121). -/
theorem runTurn_keeps_armedFits {t : Turn} {s u : State} (hwf : Memory.wf s.mem = true) (hq : s.seq = .rd6)
    (hslot : s.slot = Config.hEcho) (ha : ArmedFits s) (h : runTurn t s = .next u) :
    ArmedFits u ∧ u.slot = Config.hEcho := by
  obtain ⟨-, rfl⟩ | ⟨-, htake⟩ | ⟨pol, -, -, rfl⟩ | hframe := runTurn_at_rd6 hq h
  · exact ⟨ha.of_same rfl rfl, hslot⟩
  · rw [takeInterrupt_echo hslot] at htake
    injection htake with htake
    subst htake
    exact ⟨ArmedFits.onEdge (s := s.enterInterrupt) hwf ha,
      (State.onEdge_changesOnly _ .slot (by decide)).trans hslot⟩
  · exact ⟨ha.of_same rfl rfl, hslot⟩
  · exact ⟨ha.of_same (hframe.phase_eq (by decide)) (hframe .edge (by decide)),
      (hframe .slot (by decide)).trans hslot⟩

theorem ReachesVia.keeps_armedFits {s t : State} (h : ReachesVia (fun u => u.seq = .rd6) s t)
    (hwf : Memory.wf s.mem = true) (hslot : s.slot = Config.hEcho) (ha : ArmedFits s) :
    Memory.wf t.mem = true ∧ ArmedFits t ∧ t.slot = Config.hEcho := by
  induction h with
  | refl => exact ⟨hwf, ha, hslot⟩
  | @tail v u _ hvq hstep ih =>
    obtain ⟨hvwf, hva, hvs⟩ := ih
    have hdwf : Memory.wf v.dropTurn.mem = true := by simpa using hvwf
    exact ⟨(step_effect hstep).keeps_wf hdwf, runTurn_keeps_armedFits (s := v.dropTurn) hdwf (by simpa using hvq)
      (by simpa using hvs) (hva.of_same v.dropTurn_phase v.dropTurn_edge) hstep⟩

/-! ### The obligations -/

/-- Settles O48: none of the five causes lets a dispatch of H_ECHO be enabled, and each lasts while MAIN waits. -/
theorem waitHasNoTimeout : Obligations.WaitHasNoTimeout := by
  rintro s t hwf hq hp (⟨hicf, h⟩ | h | ⟨hicie, h⟩ | ⟨hpresc, hicf, h⟩ | h)
  case inl =>
    refine h.waits (J := fun v => v.icf = false ∧ v.edge = s.edge) hwf hq hp ⟨hicf, rfl⟩ ?_ ?_
    · intro v ⟨hf, _⟩ _ hd
      simp [State.dispatchEnabled, hf] at hd
    · intro v u hvq hvp ⟨hf, hedge⟩ hturn hstep
      obtain ⟨pol, ht, hr, -⟩ | hframe := step_quiet_at_rd6 hvq hvp (by simp [State.dispatchEnabled, hf]) hstep
      · exact absurd (ht.trans (by rw [(State.recognizes_iff.1 hr).2, hedge])) hturn
      · exact ⟨(hframe .icf (by decide)).trans (by simpa using hf),
          (hframe .edge (by decide)).trans (by simpa using hedge)⟩
  case inr.inl =>
    refine h.waits (J := fun _ => True) hwf hq hp trivial ?_ fun _ _ _ _ _ _ _ => trivial
    intro v _ hg hd
    simp [State.dispatchEnabled, hg] at hd
  case inr.inr.inl =>
    refine h.waits (J := fun v => v.icie = false) hwf hq hp hicie ?_ ?_
    · intro v hi _ hd
      simp [State.dispatchEnabled, hi] at hd
    · intro v u hvq hvp hi _ hstep
      obtain ⟨pol, -, -, rfl⟩ | hframe := step_quiet_at_rd6 hvq hvp (by simp [State.dispatchEnabled, hi]) hstep
      · simpa using hi
      · exact (hframe .icie (by decide)).trans (by simpa using hi)
  case inr.inr.inr.inl =>
    refine h.waits (J := fun v => v.presc = .off ∧ v.icf = false) hwf hq hp ⟨hpresc, hicf⟩ ?_ ?_
    · intro v ⟨_, hf⟩ _ hd
      simp [State.dispatchEnabled, hf] at hd
    · intro v u hvq hvp ⟨hoff, hf⟩ _ hstep
      obtain ⟨pol, -, hr, -⟩ | hframe := step_quiet_at_rd6 hvq hvp (by simp [State.dispatchEnabled, hf]) hstep
      · exact absurd hoff (State.recognizes_iff.1 hr).1
      · exact ⟨(hframe .presc (by decide)).trans (by simpa using hoff),
          (hframe .icf (by decide)).trans (by simpa using hf)⟩
  case inr.inr.inr.inr =>
    exact h.waits (J := fun _ => True) hwf hq hp trivial (fun _ _ hne _ => hne) fun _ _ _ _ _ _ _ => trivial

/-- Settles O49: along the wait by induction, and the polarity not waited for is not recognized. -/
theorem strayEdgesAreNotObserved : Obligations.StrayEdgesAreNotObserved := by
  refine ⟨fun s t hwf _ hslot ha h => (h.keeps_armedFits hwf hslot ha).2,
    fun s ⟨hwff, hother⟩ => ⟨fun hp => ?_, fun hp => ?_⟩⟩
  · have hedge := hother (by rw [hp]; decide)
    rw [runTurn, evEdge_ignored (by simp [State.recognizes, hedge])]
  · have hedge := hwff hp
    rw [runTurn, evEdge_ignored (by simp [State.recognizes, hedge])]

/-- Settles O41: the issue step moves SEQ alone. -/
theorem usInitIsIssued : Obligations.UsInitIsIssued := fun s =>
  ⟨fun hq => ⟨_, execUsInit_free hq, rfl, s.goto_changesOnly _⟩,
    fun hq => if_pos (by simpa [State.busy] using hq)⟩

/-- Settles O42: each micro-step by its operation and frame, and the four turns one after the other. -/
theorem usInitWiresTheBlock : Obligations.UsInitWiresTheBlock := by
  refine ⟨fun s hq => ?ui1, fun s hq => ?ui2, fun s hq => ?ui3, fun s ts hq hts => ?all⟩
  case ui1 =>
    exact ⟨_, microStep_ui1 hq, rfl, rfl, rfl, rfl, rfl, rfl, rfl,
      stepUI1_changesOnly s⟩
  case ui2 => exact ⟨_, microStep_ui2 hq, rfl, rfl, stepUI2_changesOnly s⟩
  case ui3 => exact ⟨_, microStep_ui3 hq, rfl, rfl, rfl, stepUI3_changesOnly s⟩
  case all =>
    have h₁ := step_issue hts decode_usInit hq (execUsInit_free (s := s.setTurns _) hq)
    have h₂ := step_main (s := (s.setTurns (.main :: .main :: .main :: ts)).goto .ui1) rfl (microStep_ui1 rfl)
    have hrun := (runFor_succ (n := 3) h₁).trans <| (runFor_succ h₂).trans <|
      (runFor_succ (step_main rfl (microStep_ui2 rfl))).trans <| runFor_one (step_main rfl (microStep_ui3 rfl))
    refine ⟨_, hrun, ?_, ?_, ?_, ?_, ?_, ?_, ?_, ?_, ?_, rfl, ?_, fun f hf => ?frame⟩
    case frame =>
      by_cases hseq : f = .seq
      · rw [hseq]
        exact hq.symm
      · exact ((s.setTurns_changesOnly _).trans <| (State.goto_changesOnly _ _).trans <|
          (State.setTurns_changesOnly _ _).trans <| (stepUI1_changesOnly _).trans <|
          (State.setTurns_changesOnly _ _).trans <| (stepUI2_changesOnly _).trans <|
          (State.setTurns_changesOnly _ _).trans <| stepUI3_changesOnly _) f (by simp_all)
    all_goals simp [stepUI1, stepUI2, stepUI3, State.trigPin, Config.cfgEdge]

/-- Settles O43: the two guards of the issue step. -/
theorem usReadDistanceIsIssued : Obligations.UsReadDistanceIsIssued := by
  refine fun s => ⟨fun hq hp => ⟨_, execUsReadDistance_free hq hp, rfl, s.goto_changesOnly _⟩, fun hnot => ?_⟩
  by_cases hq : s.seq = .none
  · simp [exec, execUsReadDistance, State.busy, hq, hnot.resolve_left fun h => h hq]
  · simp [exec, execUsReadDistance, State.busy, hq]

/-- Settles O44: three micro-steps, each by its operation and frame. -/
theorem triggerPulse : Obligations.TriggerPulse := by
  intro s hq
  have h₁ : ChangesOnly [.trig, .seq] s (stepRD1 s) := (s.setTrig_changesOnly _).trans (State.goto_changesOnly _ _)
  have h₂ : ChangesOnly [.seq] (stepRD1 s) (stepRD2 (stepRD1 s)) := State.goto_changesOnly _ _
  have h₃ : ChangesOnly [.trig, .seq] (stepRD2 (stepRD1 s)) (stepRD3 (stepRD2 (stepRD1 s))) :=
    (State.setTrig_changesOnly _ _).trans (State.goto_changesOnly _ _)
  refine ⟨_, _, _, microStep_rd1 hq, microStep_rd2 rfl, microStep_rd3 rfl, rfl, rfl, rfl, rfl, rfl, rfl, h₁, h₂,
    (h₁.trans (h₂.trans h₃)).mono (by decide), fun hd => ?_, fun hd => ?_⟩
  · simp [stepRD1, stepRD2, stepRD3, State.trigPin, hd]
  · simp [stepRD1, stepRD2, stepRD3, State.trigPin, hd]

/-- Settles O46: RD5 writes EDGE and SEQ alone, so an edge still pending is dispatched to H_ECHO in WFR. -/
theorem sessionIsArmed : Obligations.SessionIsArmed := by
  intro s hwf hq
  refine ⟨_, microStep_rd5 hq, rfl, rfl, rfl,
    ((s.setEdge_changesOnly _).trans (State.goto_changesOnly _ _)).mono (by decide),
    fun hslot hp hicf hicie hgie => ?_⟩
  have hd : (stepRD5 s).dispatchEnabled = true := State.dispatchEnabled_iff.2 ⟨hicf, hicie, hgie⟩
  obtain ⟨htcnt, hedge, hphase⟩ := State.onEdge_effect_wfr (s := (stepRD5 s).enterInterrupt) hwf hp
  exact ⟨_, by rw [runTurn_irq_enabled hd, takeInterrupt_echo (s := stepRD5 s) hslot], hphase, htcnt, hedge⟩

/-- Settles O52: RD9 by the value of F_CPU_HZ. -/
theorem distanceIsResponded : Obligations.DistanceIsResponded := by
  refine fun s hq => ⟨fun hf => ⟨_, microStep_rd9 hq hf, rfl, rfl,
    (s.respond_changesOnly _).trans (State.goto_changesOnly _ _)⟩, fun hf => ?_⟩
  simp only [microStep, hq]
  exact if_pos hf

end Sys2Proof.Machine

/-! ## Proofs: values nobody reads (spec/10_state.md sections 4 and 7, spec/00_scope.md section 4)

A relation between states that every named operation keeps, and that leaves alone what the guards read, is kept by
every command, every turn and every step. GIE, the observations, TRIG_HOLD_MS and RDTMP are four such relations. -/

namespace Sys2Proof.Machine

/-- Both outcomes are next states in the relation, or the same stop. -/
inductive Agree (R : State → State → Prop) :
    Host.Outcome State Fault Refusal → Host.Outcome State Fault Refusal → Prop where
  | next {s t : State} : R s t → Agree R (.next s) (.next t)
  | fault (r : Fault) : Agree R (.fault r) (.fault r)
  | refused (r : Refusal) : Agree R (.refused r) (.refused r)

/-- Outcomes that agree up to a function are that function's image. -/
theorem Agree.eq_mapNext {f : State → State} {o o' : Host.Outcome State Fault Refusal}
    (h : Agree (fun s t => t = f s) o o') : o' = mapNext f o := by
  cases h with
  | next h => exact congrArg _ h
  | fault | refused => rfl

theorem Agree.mapNext_eq {R : State → State → Prop} {f : State → State} {o o' : Host.Outcome State Fault Refusal}
    (h : Agree R o o') (hf : ∀ s t, R s t → f t = f s) : mapNext f o' = mapNext f o := by
  cases h with
  | next h => exact congrArg Host.Outcome.next (hf _ _ h)
  | fault | refused => rfl

/-! ### Relations the commands keep -/

/-- The operations that the commands perform. -/
inductive CommandOp where
  | initUnit (e : Edge) (p : Prescaler)
  | setEdge (e : Edge)
  | respond (v : Word)
  | clearCounter
  | setSlot (h : HandlerId)
  | deinitUnit
  | goto (q : Seq)

def CommandOp.apply : CommandOp → State → State
  | .initUnit e p, s => s.initUnit e p
  | .setEdge e, s => s.setEdge e
  | .respond v, s => s.respond v
  | .clearCounter, s => s.clearCounter
  | .setSlot h, s => s.setSlot h
  | .deinitUnit, s => s.deinitUnit
  | .goto q, s => s.goto q

/-- The relation changes nothing that a command reads, and the operations of the commands keep it. -/
structure KeptByCommands (R : State → State → Prop) : Prop where
  frame {s t : State} : R s t → ChangesOnly [.cfg, .rdtmp, .gie, .ilog, .resp] s t
  command {s t : State} (o : CommandOp) : R s t → R (o.apply s) (o.apply t)

section Commands

variable {R : State → State → Prop} {s t : State}

theorem KeptByCommands.seq (hR : KeptByCommands R) (h : R s t) : t.seq = s.seq := hR.frame h .seq (by decide)

theorem KeptByCommands.busy (hR : KeptByCommands R) (h : R s t) : t.busy = s.busy := by
  rw [State.busy, State.busy, hR.seq h]

theorem KeptByCommands.phase (hR : KeptByCommands R) (h : R s t) : t.phase = s.phase :=
  (hR.frame h).phase_eq (by decide)

theorem KeptByCommands.icr (hR : KeptByCommands R) (h : R s t) : t.icr = s.icr := hR.frame h .icr (by decide)

theorem KeptByCommands.exec (hR : KeptByCommands R) (i : Instr) (h : R s t) : Agree R (exec i s) (exec i t) := by
  cases i with
  | icuInit e p => exact .next (hR.command (.initUnit e p) h)
  | icuSetEdge e => exact .next (hR.command (.setEdge e) h)
  | icuGetCapture =>
    simp only [Machine.exec, execIcuGetCapture, hR.icr h]
    exact .next (hR.command (.respond _) h)
  | icuClearCounter => exact .next (hR.command .clearCounter h)
  | icuRegister k =>
    simp only [Machine.exec, execIcuRegister]
    split
    · exact .refused _
    · exact .next (hR.command (.setSlot k) h)
  | icuDeinit => exact .next (hR.command .deinitUnit h)
  | usInit =>
    simp only [Machine.exec, execUsInit, hR.busy h]
    split
    · exact .refused _
    · exact .next (hR.command (.goto _) h)
  | usReadDistance =>
    simp only [Machine.exec, execUsReadDistance, hR.busy h, hR.phase h]
    split
    · exact .refused _
    · split
      · exact .next (hR.command (.goto _) h)
      · exact .refused _

end Commands

/-! ### Relations every step keeps -/

/-- The operations that the events, the handlers, the micro-steps and the schedule perform beside those. -/
inductive TurnOp where
  | countUp
  | latch
  | setGie (b : Bool)
  | setTrig (b : Bool)
  | setTrigDir (d : PinDir)
  | setRdtmp (v : Word)
  | setPhase (p : Phase)
  | setPw (v : Word)
  | enterInterrupt
  | dropTurn

def TurnOp.apply : TurnOp → State → State
  | .countUp, s => s.countUp
  | .latch, s => s.latch
  | .setGie b, s => s.setGie b
  | .setTrig b, s => s.setTrig b
  | .setTrigDir d, s => s.setTrigDir d
  | .setRdtmp v, s => s.setRdtmp v
  | .setPhase p, s => s.setPhase p
  | .setPw v, s => s.setPw v
  | .enterInterrupt, s => s.enterInterrupt
  | .dropTurn, s => s.dropTurn

/-- Beside that, the relation leaves GIE and every parameter but TRIG_HOLD_MS alone, and the other operations keep
it too. -/
structure KeptByTurns (R : State → State → Prop) : Prop extends KeptByCommands R where
  gie {s t : State} : R s t → t.gie = s.gie
  cfg {s t : State} : R s t → t.cfg = { s.cfg with trigHoldMs := t.cfg.trigHoldMs }
  turn {s t : State} (o : TurnOp) : R s t → R (o.apply s) (o.apply t)

section Turns

variable {R : State → State → Prop} {s t : State}

theorem KeptByTurns.onEdge (hR : KeptByTurns R) (h : R s t) : R s.onEdge t.onEdge := by
  simp only [State.onEdge, hR.phase h, hR.icr h]
  split
  · exact hR.turn (.setPhase _) (hR.command (.setEdge _) (hR.command .clearCounter h))
  · split
    · exact hR.turn (.setPhase _) (hR.command (.setEdge _) (hR.turn (.setPw _) h))
    · exact h

theorem KeptByTurns.handlerWord (hR : KeptByTurns R) (w : Byte) (h : R s t) :
    Agree R (handlerWord w s) (handlerWord w t) := by
  unfold Machine.handlerWord
  split
  · exact .next (hR.command (.setEdge _) h)
  · exact .next h
  · exact .next (hR.command .clearCounter h)
  · exact .next (hR.command (.setSlot _) h)
  all_goals exact .refused _

theorem KeptByTurns.runBody (hR : KeptByTurns R) (ws : List Byte) (h : R s t) :
    Agree R (runBody ws s) (runBody ws t) := by
  induction ws generalizing s t with
  | nil => exact .next h
  | cons w ws ih =>
    have hw := hR.handlerWord w h
    simp only [Machine.runBody]
    generalize Machine.handlerWord w s = o, Machine.handlerWord w t = o' at hw
    cases hw with
    | next h => exact ih h
    | fault r => exact .fault r
    | refused r => exact .refused r

theorem KeptByTurns.takeInterrupt (hR : KeptByTurns R) (h : R s t) :
    Agree R (takeInterrupt s) (takeInterrupt t) := by
  have hslot : t.slot = s.slot := hR.frame h .slot (by decide)
  have hbody : foreignBody t.cfg s.slot = foreignBody s.cfg s.slot := by rw [hR.cfg h]; rfl
  simp only [Machine.takeInterrupt, runHandler, hslot, State.enterInterrupt_cfg, hbody]
  split
  · exact .next (hR.turn .enterInterrupt h)
  · split
    · exact .next (hR.onEdge (hR.turn .enterInterrupt h))
    · exact hR.runBody _ (hR.turn .enterInterrupt h)

theorem KeptByTurns.evDispatch (hR : KeptByTurns R) (h : R s t) : Agree R (evDispatch s) (evDispatch t) := by
  have hd : t.dispatchEnabled = s.dispatchEnabled := by
    rw [State.dispatchEnabled, State.dispatchEnabled, hR.gie h, hR.frame h .icf (by decide),
      hR.frame h .icie (by decide)]
  simp only [Machine.evDispatch, hd]
  split
  · exact hR.takeInterrupt h
  · exact .next h

theorem KeptByTurns.clocked (hR : KeptByTurns R) (h : R s t) : t.clocked = s.clocked := by
  rw [State.clocked, State.clocked, hR.frame h .presc (by decide)]

theorem KeptByTurns.evTick (hR : KeptByTurns R) (h : R s t) : R (evTick s) (evTick t) := by
  simp only [Machine.evTick, hR.clocked h]
  split
  · exact hR.turn .countUp h
  · exact h

theorem KeptByTurns.evEdge (hR : KeptByTurns R) (pol : Edge) (h : R s t) : R (evEdge pol s) (evEdge pol t) := by
  have hr : t.recognizes pol = s.recognizes pol := by
    rw [State.recognizes, State.recognizes, hR.clocked h, hR.frame h .edge (by decide)]
  simp only [Machine.evEdge, hr]
  split
  · exact hR.turn .latch h
  · exact h

/-- RD9 alone needs the two states to hold the same RDTMP. -/
theorem KeptByTurns.microStep (hR : KeptByTurns R) (h : R s t) (h9 : s.seq = .rd9 → t.rdtmp = s.rdtmp) :
    Agree R (microStep s) (microStep t) := by
  unfold Machine.microStep
  rw [hR.seq h]
  cases hq : s.seq with
  | none => exact .next h
  | ui1 =>
    have hp : t.cfg.presc = s.cfg.presc := by rw [hR.cfg h]
    simp only [stepUI1, hp]
    exact .next (hR.command (.goto _) (hR.command (.initUnit _ _) h))
  | ui2 => exact .next (hR.command (.goto _) (hR.command (.setSlot _) h))
  | ui3 => exact .next (hR.command (.goto _) (hR.turn (.setTrigDir _) h))
  | rd1 => exact .next (hR.command (.goto _) (hR.turn (.setTrig _) h))
  | rd2 => exact .next (hR.command (.goto _) h)
  | rd3 => exact .next (hR.command (.goto _) (hR.turn (.setTrig _) h))
  | rd4 => exact .next (hR.command (.goto _) (hR.turn (.setPhase _) h))
  | rd5 => exact .next (hR.command (.goto _) (hR.command (.setEdge _) h))
  | rd6 =>
    have hready : t.ready = s.ready := by rw [State.ready, State.ready, hR.phase h]
    simp only [stepRD6, hready]
    split
    · exact .next (hR.command (.goto _) h)
    · exact .next h
  | rd7 =>
    have hpw : t.pw = s.pw := (hR.frame h).pw_eq (by decide) (by decide)
    simp only [stepRD7, hpw]
    exact .next (hR.command (.goto _) (hR.turn (.setRdtmp _) h))
  | rd8 => exact .next (hR.command (.goto _) (hR.turn (.setPhase _) h))
  | rd9 =>
    have hpresc : t.presc = s.presc := hR.frame h .presc (by decide)
    have hf : t.cfg.fCpuHz = s.cfg.fCpuHz := by rw [hR.cfg h]
    have hk : t.cfg.calOffset = s.cfg.calOffset := by rw [hR.cfg h]
    simp only [stepRD9, hpresc, hf, hk, h9 hq]
    split
    · exact .refused _
    · exact .next (hR.command (.goto _) (hR.command (.respond _) h))

theorem KeptByTurns.runTurn (hR : KeptByTurns R) (n : Turn) (h : R s t)
    (h9 : s.seq = .rd9 → n = .main → t.rdtmp = s.rdtmp) : Agree R (runTurn n s) (runTurn n t) := by
  cases n with
  | issue w =>
    simp only [Machine.runTurn, issueWord, hR.busy h]
    split
    · exact .refused _
    · split
      · exact .refused _
      · exact hR.exec _ h
  | main => exact hR.microStep h fun hq => h9 hq rfl
  | irq => exact hR.evDispatch h
  | clk => exact .next (hR.evTick h)
  | echo pol => exact .next (hR.evEdge pol h)
  | gie b => exact .next (hR.turn (.setGie b) h)

theorem KeptByTurns.step (hR : KeptByTurns R) (h : R s t)
    (h9 : s.seq = .rd9 → s.nextTurn = .main → t.rdtmp = s.rdtmp) : Agree R (step s) (step t) := by
  have hn : t.nextTurn = s.nextTurn := by
    rw [State.nextTurn, State.nextTurn, hR.frame h .turns (by decide), hR.frame h .draws (by decide)]
  rw [Machine.step, Machine.step, hn]
  exact hR.runTurn _ (hR.turn .dropTurn h) (by simpa using h9)

end Turns

/-! ### The four relations -/

theorem State.dropTurn_eq (s : State) :
    s.dropTurn = { s with turns := s.turns.tail, draws := if s.turns = [] then s.draws + 1 else s.draws } := by
  cases s with
  | mk => unfold State.dropTurn; split <;> simp_all [State.setTurns]

theorem setGie_keptByCommands (b : Bool) : KeptByCommands fun s t => t = s.setGie b where
  frame := by rintro s _ rfl; exact (s.setGie_changesOnly b).mono (by decide)
  command := by rintro s _ o rfl; cases o <;> rfl

/-- The state with a longer past of ILOG and of the responses. -/
def State.withPast (l : List HandlerId) (r : List Word) (s : State) : State :=
  { s with ilog := l ++ s.ilog, resp := r ++ s.resp }

theorem withPast_keptByTurns (l : List HandlerId) (r : List Word) :
    KeptByTurns fun s t => t = s.withPast l r where
  frame := by
    rintro s _ rfl f hf
    cases f with
    | ilog | resp => exact absurd hf (by decide)
    | _ => rfl
  command := by
    rintro s _ o rfl
    cases o with
    | respond v => simp [CommandOp.apply, State.withPast, State.respond]
    | _ => rfl
  gie := by rintro s _ rfl; rfl
  cfg := by rintro s _ rfl; rfl
  turn := by
    rintro s _ o rfl
    cases o with
    | enterInterrupt => by_cases h0 : s.slot = 0#4 <;> simp [TurnOp.apply, State.withPast, State.enterInterrupt, h0]
    | dropTurn => simp only [TurnOp.apply, State.dropTurn_eq]; rfl
    | _ => rfl

/-- The state of a machine with another TRIG_HOLD_MS. -/
def State.withTrigHold (n : Nat) (s : State) : State := { s with cfg := { s.cfg with trigHoldMs := n } }

theorem withTrigHold_keptByTurns (n : Nat) : KeptByTurns fun s t => t = s.withTrigHold n where
  frame := by
    rintro s _ rfl f hf
    cases f with
    | cfg => exact absurd hf (by decide)
    | _ => rfl
  command := by rintro s _ o rfl; cases o <;> rfl
  gie := by rintro s _ rfl; rfl
  cfg := by rintro s _ rfl; rfl
  turn := by
    rintro s _ o rfl
    cases o with
    | dropTurn => simp only [TurnOp.apply, State.dropTurn_eq]; rfl
    | _ => rfl

/-- The two states hold the same but in RDTMP. -/
def SameButRdtmp (s t : State) : Prop := ∃ v, t = s.setRdtmp v

theorem sameButRdtmp_keptByTurns : KeptByTurns SameButRdtmp where
  frame := by rintro s _ ⟨v, rfl⟩; exact (s.setRdtmp_changesOnly v).mono (by decide)
  command := by rintro s _ o ⟨v, rfl⟩; exact ⟨v, by cases o <;> rfl⟩
  gie := by rintro s _ ⟨v, rfl⟩; rfl
  cfg := by rintro s _ ⟨v, rfl⟩; rfl
  turn := by
    rintro s _ o ⟨v, rfl⟩
    cases o with
    | setRdtmp w => exact ⟨w, rfl⟩
    | dropTurn => exact ⟨v, by simp only [TurnOp.apply, State.dropTurn_eq]; rfl⟩
    | _ => exact ⟨v, rfl⟩

theorem SameButRdtmp.setRdtmp_eq {s t : State} (h : SameButRdtmp s t) (v : Word) : t.setRdtmp v = s.setRdtmp v := by
  obtain ⟨w, rfl⟩ := h
  rfl

/-- RD7 writes RDTMP before anything reads it (R117). -/
theorem step_rd7_setRdtmp {s : State} (hq : s.seq = .rd7) (hm : s.nextTurn = .main) (v : Word) :
    step (s.setRdtmp v) = step s := by
  have hn : (s.setRdtmp v).nextTurn = .main := hm
  rw [step, step, hm, hn, runTurn, runTurn, microStep_rd7 (s := s.dropTurn) (by simpa using hq),
    microStep_rd7 (s := (s.setRdtmp v).dropTurn) (by simpa using hq), State.dropTurn_eq, State.dropTurn_eq]
  rfl

/-! ### The obligations -/

/-- Settles O28: for the commands, GIE is a relation they keep; the turns' conditions are read off. -/
theorem commandsDoNotReadGie : Obligations.CommandsDoNotReadGie := by
  refine ⟨fun i s b => ((setGie_keptByCommands b).exec i rfl).eq_mapNext, fun s hg => ?_, fun t s b ht => ?_⟩
  · have hd := State.dispatchEnabled_of_gie hg
    exact ⟨hd, runTurn_irq_disabled hd⟩
  · cases t with
    | irq => exact absurd rfl ht
    | _ => rfl

/-- Settles O55: the longer past is a relation every turn keeps, and RDTMP is the same in both states. -/
theorem observationsAreNotRead : Obligations.ObservationsAreNotRead := fun s l r =>
  ((withPast_keptByTurns l r).step (s := s) rfl fun _ _ => rfl).eq_mapNext

/-- Settles O56: another TRIG_HOLD_MS is a relation every turn keeps. -/
theorem triggerHoldIsNotRead : Obligations.TriggerHoldIsNotRead := fun s n =>
  ((withTrigHold_keptByTurns n).step (s := s) rfl fun _ _ => rfl).eq_mapNext

/-- Settles O57: only RD9 needs the two states to hold the same RDTMP, and it is shut out. -/
theorem localCopyIsReadByRD9Only : Obligations.LocalCopyIsReadByRD9Only := by
  refine fun s v h9 => ⟨?_, fun hq hm => step_rd7_setRdtmp hq hm v⟩
  have hagree := sameButRdtmp_keptByTurns.step (s := s) ⟨v, rfl⟩ fun hq hm => absurd ⟨hq, hm⟩ h9
  exact hagree.mapNext_eq fun _ _ h => h.setRdtmp_eq 0

end Sys2Proof.Machine

/-! ## Proofs: session memory and the converter's saturation (spec/20_memory.md, spec/43_distance_conversion.md)

The offset step as one integer expression, the value of a conversion, and its raw distance with no clock; then the
obligations assembled from them. -/

namespace Sys2Proof.Machine

theorem adjustDistance_cast (raw : Nat) (k : Int) :
    (adjustDistance raw k : Int) = if (raw : Int) > k then (raw : Int) - k else (raw : Int) := by
  split
  · next h => exact adjustDistance_of_gt h
  · next h => rw [adjustDistance_of_le (not_lt.1 h)]

/-- The result fits the word it is returned in: it does not wrap (R134). -/
theorem convert_toNat (t : Word) (p : Nat) (f : BitVec 32) (k : BitVec 16) :
    (convert t p f k).toNat = min (adjustDistance (rawDistance t.toNat p f.toNat) k.toInt) 65535 := by
  rw [convert, BitVec.toNat_ofNat, maxDistance]
  omega

theorem rawDistance_off (t f : Nat) : rawDistance t (divisor .off) f = 0 := by
  simp [rawDistance, rawExact, divisor]

/-! ### The obligations -/

/-- Settles O54, from the reads after writes of session memory. -/
theorem sessionMemoryReadsBack : Obligations.SessionMemoryReadsBack := fun s v p hwf =>
  ⟨State.setPw_pw hwf v, State.setPw_pwLo hwf v, State.setPw_pwHi hwf v, s.setPw_phase v,
    State.setPhase_phase hwf p, by rw [State.setPhase_phase hwf]; cases p <;> rfl, s.setPhase_pw p,
    State.setPw_wf hwf v, State.setPhase_wf hwf p⟩

/-- Settles O58: the quotient is the one truncation, and the rest is integer arithmetic on it. -/
theorem convertIsTheTruncatedExactValue : Obligations.ConvertIsTheTruncatedExactValue := by
  intro t p f k hf
  have hpos : 0 < f.toNat := Nat.pos_of_ne_zero fun h => hf (BitVec.eq_of_toNat_eq h)
  have hraw : (rawDistance t.toNat p f.toNat : Int) = min ((t.toNat * 17150 * p / f.toNat : Nat) : Int) 65535 :=
    Nat.cast_min _ _
  refine ⟨t.toNat * 17150 * p / f.toNat, Nat.div_mul_le_self _ _,
    (Nat.div_lt_iff_lt_mul hpos).1 (Nat.lt_succ_self _), ?_⟩
  rw [convert_toNat, Nat.cast_min, adjustDistance_cast, hraw]
  rfl

/-- Settles O60: the raw distance is 0, so the offset is applied exactly when it is negative. -/
theorem disabledPrescalerConvertsToTheOffset : Obligations.DisabledPrescalerConvertsToTheOffset := by
  intro t f k
  have hval := convert_toNat t (divisor .off) f k
  rw [rawDistance_off] at hval
  refine ⟨fun hk => BitVec.eq_of_toNat_eq ?_, fun hk => ?_⟩
  · rw [hval, adjustDistance_of_le hk]
    rfl
  · have hlo : -32768 ≤ k.toInt := BitVec.le_toInt k
    have hadj := adjustDistance_of_gt (raw := 0) hk
    omega

end Sys2Proof.Machine

/-! ## Proofs: a whole session (spec/42_echo_ranging.md)

Between two turns that matter, the turns of a session write at most TCNT and GIE, and MAIN goes through its
micro-steps or polls. A session is six such stretches, each begun by a turn that matters: the call, RD5, and each
edge and its dispatch. -/

namespace Sys2Proof.Machine

/-! ### Stretches of quiet turns -/

/-- The state at another moment of a stretch: only what quiet turns write, and the schedule, differ. -/
def State.retime (s : State) (c : Word) (g : Bool) (ts : List Turn) : State :=
  { s with tcnt := c, gie := g, turns := ts }

theorem State.retime_changesOnly (s : State) (c : Word) (g : Bool) (ts : List Turn) :
    ChangesOnly [.tcnt, .gie, .turns] s (s.retime c g ts) := by
  intro f hf
  cases f with
  | tcnt | gie | turns => exact absurd hf (by decide)
  | _ => rfl

/-- No micro-step but UI1 reads or writes what quiet turns write. -/
theorem microStep_retime {s u : State} (hq : s.seq ≠ .ui1) (h : microStep s = .next u) (c : Word) (g : Bool)
    (ts : List Turn) : microStep (s.retime c g ts) = .next (u.retime c g ts) := by
  cases effect_of_microStep h with
  | mainIdle hn => simp only [microStep, State.retime, hn]
  | ui1 hn => exact absurd hn hq
  | ui2 hn => exact microStep_ui2 (s := s.retime c g ts) hn
  | ui3 hn => exact microStep_ui3 (s := s.retime c g ts) hn
  | rd1 hn => exact microStep_rd1 (s := s.retime c g ts) hn
  | rd2 hn => exact microStep_rd2 (s := s.retime c g ts) hn
  | rd3 hn => exact microStep_rd3 (s := s.retime c g ts) hn
  | rd4 hn => exact microStep_rd4 (s := s.retime c g ts) hn
  | rd5 hn => exact microStep_rd5 (s := s.retime c g ts) hn
  | rd6Hold hn hp => exact microStep_rd6_hold (s := s.retime c g ts) hn hp
  | rd6Go hn hp => exact microStep_rd6_ready (s := s.retime c g ts) hn hp
  | rd7 hn => exact microStep_rd7 (s := s.retime c g ts) hn
  | rd8 hn => exact microStep_rd8 (s := s.retime c g ts) hn
  | rd9 hn hf => exact microStep_rd9 (s := s.retime c g ts) hn hf

theorem step_main_retime {s u : State} (hq : s.seq ≠ .ui1) (h : microStep s = .next u) (c : Word) (g : Bool)
    (ts : List Turn) : step (s.retime c g (.main :: ts)) = .next (u.retime c g ts) :=
  step_main (s := s.retime c g (.main :: ts)) rfl (microStep_retime hq h c g ts)

/-- What the turns of a stretch need of the state: the armed polarity, a running clock, and whether an edge is
pending. -/
structure Undisturbed (armed : Edge) (pending : Bool) (s : State) : Prop where
  edge : s.edge = armed
  clocked : s.clocked = true
  icf : s.icf = pending

theorem Undisturbed.of_changesOnly {armed : Edge} {pending : Bool} {s t : State} {fs : List Piece}
    (h : Undisturbed armed pending s) (hf : ChangesOnly fs s t) (he : .edge ∉ fs) (hp : .presc ∉ fs)
    (hi : .icf ∉ fs) : Undisturbed armed pending t where
  edge := (hf .edge he).trans h.edge
  clocked := by rw [State.clocked, hf .presc hp]; exact h.clocked
  icf := (hf .icf hi).trans h.icf

/-- The turns of a stretch: quiet ones, and none of IRQ while an edge is pending. -/
def StretchTurns (armed : Edge) (pending : Bool) (ts : List Turn) : Prop :=
  ∀ t ∈ ts, quietTurn armed t = true ∧ (pending = true → t ≠ .irq)

theorem stretchTurns_of_quiet {armed : Edge} {ts : List Turn} (h : ∀ t ∈ ts, quietTurn armed t = true) :
    StretchTurns armed false ts := fun t ht => ⟨h t ht, nofun⟩

theorem stretchTurns_of_latency {armed : Edge} {ts : List Turn} (h : ∀ t ∈ ts, latencyTurn armed t = true) :
    StretchTurns armed true ts := fun t ht =>
  ⟨(latencyTurn_iff.1 (h t ht)).1, fun _ => (latencyTurn_iff.1 (h t ht)).2⟩

/-- MAIN's micro-steps of a stretch, `k` of them, through undisturbed states. -/
inductive MainRun (armed : Edge) (pending : Bool) : Nat → State → State → Prop where
  | done {s : State} : Undisturbed armed pending s → MainRun armed pending 0 s s
  | move {k : Nat} {s t u : State} : Undisturbed armed pending s → s.seq ≠ .ui1 → microStep s = .next t →
      MainRun armed pending k t u → MainRun armed pending (k + 1) s u

theorem MainRun.undisturbed {armed : Edge} {pending : Bool} {k : Nat} {s u : State}
    (h : MainRun armed pending k s u) : Undisturbed armed pending s := by
  cases h <;> assumption

/-- While MAIN waits, its turns of a stretch are polls. -/
theorem MainRun.polls {armed : Edge} {pending : Bool} {s : State} (hs : Undisturbed armed pending s)
    (hq : s.seq = .rd6) (hp : s.phase ≠ Phase.ready.code) (k : Nat) : MainRun armed pending k s s := by
  induction k with
  | zero => exact .done hs
  | succ k ih => exact .move hs (by rw [hq]; decide) (microStep_rd6_hold hq hp) ih

/-- TCNT counts the ticks of a stretch, modulo its width. -/
theorem count_clk_cons (c : Word) (t : Turn) (ts : List Turn) :
    (if t = .clk then c + 1#16 else c) + BitVec.ofNat 16 (ts.count .clk) =
      c + BitVec.ofNat 16 ((t :: ts).count .clk) := by
  by_cases ht : t = .clk
  · rw [if_pos ht, ht, List.count_cons_self, Nat.add_comm, BitVec.ofNat_add, BitVec.add_assoc]
  · rw [if_neg ht, List.count_cons_of_ne ht]

/-- A stretch: MAIN's micro-steps are carried out, the ticks are counted, and GIE is as last set. -/
theorem MainRun.runFor {armed : Edge} {pending : Bool} {ts : List Turn} {s u : State}
    (h : MainRun armed pending (ts.count .main) s u) (hts : StretchTurns armed pending ts) (c : Word) (g : Bool)
    (rest : List Turn) :
    runFor ts.length (s.retime c g (ts ++ rest)) =
      .next (u.retime (c + BitVec.ofNat 16 (ts.count .clk)) (gieAfter g ts) rest) := by
  induction ts generalizing s c g with
  | nil =>
    cases h
    simp [Machine.runFor]
  | cons t ts ih =>
    have htail : StretchTurns armed pending ts := fun x hx => hts x (List.mem_cons_of_mem _ hx)
    obtain ⟨hquiet, hirq⟩ := hts t List.mem_cons_self
    rw [gieAfter_cons, ← count_clk_cons]
    by_cases hm : t = .main
    · subst hm
      rw [List.count_cons_self] at h
      cases h with
      | move _ hq hstep hrun => exact (runFor_succ (step_main_retime hq hstep c g _)).trans (ih hrun htail c g)
    · rw [List.count_cons_of_ne hm] at h
      obtain ⟨hedge, hclk, hicf⟩ := h.undisturbed
      have hf : s.icf = false ∨ t ≠ .irq := by
        cases hp : pending with
        | false => exact .inl (hicf.trans hp)
        | true => exact .inr (hirq hp)
      have hstep := step_of_quietTurn (s := s.retime c g (t :: ts ++ rest)) hquiet hm hf hedge hclk rfl
      exact (runFor_succ hstep).trans (ih h htail _ _)

/-- A turn that matters, and the stretch after it. -/
theorem MainRun.runFor_cons {armed : Edge} {pending : Bool} {t : Turn} {ts rest : List Turn} {s s' u : State}
    {c : Word} {g : Bool} (hstep : step s = .next (s'.retime c g (ts ++ rest)))
    (h : MainRun armed pending (ts.count .main) s' u) (hts : StretchTurns armed pending ts) :
    Machine.runFor (t :: ts).length s =
      .next (u.retime (c + BitVec.ofNat 16 (ts.count .clk)) (gieAfter g ts) rest) :=
  (runFor_succ hstep).trans (h.runFor hts c g rest)

theorem runFor_append {ts us : List Turn} {s t u : State} (h₁ : runFor ts.length s = .next t)
    (h₂ : runFor us.length t = .next u) : runFor (ts ++ us).length s = .next u := by
  rw [List.length_append, runFor_add h₁, h₂]

/-! ### The turns that matter -/

/-- The state with an edge latched at the count `c`. -/
def State.pend (s : State) (c : Word) : State := { s with icr := c, icf := true }

theorem step_echo_retime {s : State} {pol : Edge} (hr : s.recognizes pol = true) (c : Word) (g : Bool)
    (ts : List Turn) : step (s.retime c g (.echo pol :: ts)) = .next ((s.pend c).retime c g ts) :=
  step_echo (s := s.retime c g (.echo pol :: ts)) rfl hr

/-- The state that the dispatch of the rising edge leaves, TCNT aside. -/
def State.risen (s : State) : State := (s.enterInterrupt.setEdge .falling).setPhase .wff

/-- The state that the dispatch of the falling edge leaves. -/
def State.fallen (s : State) : State := ((s.enterInterrupt.setPw s.icr).setEdge .rising).setPhase .ready

theorem step_irq_echo {s : State} (hslot : s.slot = Config.hEcho) (hicf : s.icf = true) (hicie : s.icie = true)
    (c : Word) (ts : List Turn) :
    step (s.retime c true (.irq :: ts)) = .next (s.retime c true ts).enterInterrupt.onEdge := by
  rw [step_of_turns (s := s.retime c true (.irq :: ts)) rfl, runTurn_irq_enabled]
  · exact takeInterrupt_echo (s := s.retime c true ts) hslot
  · exact State.dispatchEnabled_iff.2 ⟨hicf, hicie, rfl⟩

theorem step_irq_rising {s : State} (hslot : s.slot = Config.hEcho) (hicf : s.icf = true) (hicie : s.icie = true)
    (hp : s.phase = Phase.wfr.code) (c : Word) (ts : List Turn) :
    step (s.retime c true (.irq :: ts)) = .next (s.risen.retime 0#16 true ts) := by
  rw [step_irq_echo hslot hicf hicie, State.onEdge_wfr (s := (s.retime c true ts).enterInterrupt) hp]
  rfl

theorem step_irq_falling {s : State} (hslot : s.slot = Config.hEcho) (hicf : s.icf = true) (hicie : s.icie = true)
    (hp : s.phase = Phase.wff.code) (c : Word) (ts : List Turn) :
    step (s.retime c true (.irq :: ts)) = .next (s.fallen.retime c true ts) := by
  rw [step_irq_echo hslot hicf hicie, State.onEdge_wff (s := (s.retime c true ts).enterInterrupt) hp]
  rfl

/-! ### The states of a session -/

/-- The state in which MAIN reaches RD5: the trigger pulsed and the session open. -/
def State.opened (s : State) : State := ((s.setTrig false).setPhase .wfr).goto .rd5

/-- The state in which MAIN is back from the call, the response given. -/
def State.closed (s : State) : State :=
  (((s.setRdtmp s.pw).setPhase .idle).respond
    (convert s.pw (divisor s.presc) s.cfg.fCpuHz s.cfg.calOffset)).goto .none

/-- The state in which MAIN begins to wait, RD5 done. -/
def State.waiting (s : State) : State := (((s.setTrig false).setPhase .wfr).setEdge .rising).goto .rd6

section States

variable (s : State)

@[simp] theorem State.waiting_cfg : s.waiting.cfg = s.cfg := rfl
@[simp] theorem State.risen_cfg : s.risen.cfg = s.cfg := rfl
@[simp] theorem State.pend_cfg (c : Word) : (s.pend c).cfg = s.cfg := rfl
@[simp] theorem State.pend_icr (c : Word) : (s.pend c).icr = c := rfl
@[simp] theorem State.pend_ilog (c : Word) : (s.pend c).ilog = s.ilog := rfl

theorem State.waiting_changesOnly : ChangesOnly [.trig, .byte .phase, .edge, .seq] s s.waiting :=
  (s.setTrig_changesOnly false).trans <| (State.setPhase_changesOnly _ _).trans <|
    (State.setEdge_changesOnly _ _).trans <| State.goto_changesOnly _ _

theorem State.pend_changesOnly (c : Word) : ChangesOnly [.icr, .icf] s (s.pend c) := by
  intro f hf
  cases f with
  | icr | icf => exact absurd hf (by decide)
  | _ => rfl

theorem State.risen_changesOnly : ChangesOnly [.icf, .ilog, .edge, .byte .phase] s s.risen :=
  s.enterInterrupt_changesOnly.trans ((State.setEdge_changesOnly _ _).trans (State.setPhase_changesOnly _ _))

theorem State.fallen_changesOnly :
    ChangesOnly [.icf, .ilog, .byte .pwLo, .byte .pwHi, .edge, .byte .phase] s s.fallen :=
  s.enterInterrupt_changesOnly.trans ((State.setPw_changesOnly _ _).trans
    ((State.setEdge_changesOnly _ _).trans (State.setPhase_changesOnly _ _)))

theorem State.closed_changesOnly : ChangesOnly [.rdtmp, .byte .phase, .resp, .seq] s s.closed :=
  (s.setRdtmp_changesOnly _).trans ((State.setPhase_changesOnly _ _).trans
    ((State.respond_changesOnly _ _).trans (State.goto_changesOnly _ _)))

variable {s}

theorem State.closed_phase (hwf : Memory.wf s.mem = true) : s.closed.phase = Phase.idle.code := by
  simp [State.closed, State.setPhase_phase, hwf]

theorem State.closed_resp :
    s.closed.resp = s.resp ++ [convert s.pw (divisor s.presc) s.cfg.fCpuHz s.cfg.calOffset] := rfl

variable (s)

/-- The two dispatches of a session change nothing but what H_ECHO and the latch write. -/
theorem State.ranged_changesOnly (c n : Word) :
    ChangesOnly [.icr, .icf, .ilog, .edge, .byte .phase, .byte .pwLo, .byte .pwHi] s
      ((s.pend c).risen.pend n).fallen :=
  ((State.pend_changesOnly _ _).trans <| (State.risen_changesOnly _).trans <|
    (State.pend_changesOnly _ _).trans <| State.fallen_changesOnly _).mono (by decide)

end States

/-- Steps RD1 to RD4. -/
theorem mainRun_opened {armed : Edge} {s : State} (hs : Undisturbed armed false s) :
    MainRun armed false 4 (s.goto .rd1) s.opened := by
  have h₁ : microStep (s.goto .rd1) = .next ((s.setTrig true).goto .rd2) := rfl
  have h₂ : microStep ((s.setTrig true).goto .rd2) = .next ((s.setTrig true).goto .rd3) := rfl
  have h₃ : microStep ((s.setTrig true).goto .rd3) = .next ((s.setTrig false).goto .rd4) := rfl
  have h₄ : microStep ((s.setTrig false).goto .rd4) = .next s.opened := rfl
  obtain ⟨hedge, hclk, hicf⟩ := hs
  exact .move ⟨hedge, hclk, hicf⟩ nofun h₁ <| .move ⟨hedge, hclk, hicf⟩ nofun h₂ <|
    .move ⟨hedge, hclk, hicf⟩ nofun h₃ <| .move ⟨hedge, hclk, hicf⟩ nofun h₄ <| .done ⟨hedge, hclk, hicf⟩

/-- Steps RD6 to RD9. -/
theorem mainRun_closed {armed : Edge} {s : State} (hs : Undisturbed armed false s) (hq : s.seq = .rd6)
    (hp : s.phase = Phase.ready.code) (hf : s.cfg.fCpuHz ≠ 0) : MainRun armed false 4 s s.closed := by
  have h₂ : microStep (s.goto .rd7) = .next ((s.setRdtmp s.pw).goto .rd8) := rfl
  have h₃ : microStep ((s.setRdtmp s.pw).goto .rd8) = .next (((s.setRdtmp s.pw).setPhase .idle).goto .rd9) := rfl
  have h₄ : microStep (((s.setRdtmp s.pw).setPhase .idle).goto .rd9) = .next s.closed := microStep_rd9 rfl hf
  have hend := hs.of_changesOnly s.closed_changesOnly (by decide) (by decide) (by decide)
  obtain ⟨hedge, hclk, hicf⟩ := hs
  exact .move ⟨hedge, hclk, hicf⟩ (by rw [hq]; decide) (microStep_rd6_ready hq hp) <|
    .move ⟨hedge, hclk, hicf⟩ nofun h₂ <| .move ⟨hedge, hclk, hicf⟩ nofun h₃ <|
    .move ⟨hedge, hclk, hicf⟩ nofun h₄ <| .done hend

/-- MAIN waits at RD6 of a session with H_ECHO registered, the unit clocked and its interrupt enabled, in phase `ph`,
the polarity `pol` armed. -/
structure Waiting (ph : Phase) (pol : Edge) (pending : Bool) (s : State) : Prop
    extends Undisturbed pol pending s where
  wf : Memory.wf s.mem = true
  seq : s.seq = .rd6
  slot : s.slot = Config.hEcho
  icie : s.icie = true
  phase : s.phase = ph.code

namespace Waiting

variable {ph : Phase} {pol : Edge} {pending : Bool} {s : State}

theorem start (hwf : Memory.wf s.mem = true) (hslot : s.slot = Config.hEcho) (hicie : s.icie = true)
    (hs : Undisturbed pol false s) : Waiting .wfr .rising false s.waiting where
  wf := by simp [State.waiting, State.setPhase_wf, hwf]
  seq := rfl
  slot := hslot
  icie := hicie
  phase := by simp [State.waiting, State.setPhase_phase, hwf]
  edge := rfl
  clocked := hs.clocked
  icf := hs.icf

theorem pend (h : Waiting ph pol false s) (c : Word) : Waiting ph pol true (s.pend c) where
  wf := h.wf
  seq := h.seq
  slot := h.slot
  icie := h.icie
  phase := h.phase
  edge := h.edge
  clocked := h.clocked
  icf := rfl

theorem risen (h : Waiting .wfr .rising true s) : Waiting .wff .falling false s.risen where
  wf := by simp [State.risen, State.setPhase_wf, h.wf]
  seq := h.seq
  slot := h.slot
  icie := h.icie
  phase := by simp [State.risen, State.setPhase_phase, h.wf]
  edge := rfl
  clocked := h.clocked
  icf := rfl

theorem fallen (h : Waiting .wff .falling true s) : Waiting .ready .rising false s.fallen where
  wf := by simp [State.fallen, State.setPhase_wf, State.setPw_wf, h.wf]
  seq := h.seq
  slot := h.slot
  icie := h.icie
  phase := by simp [State.fallen, State.setPhase_phase, State.setPw_wf, h.wf]
  edge := rfl
  clocked := h.clocked
  icf := rfl

theorem polls (h : Waiting ph pol pending s) (hph : ph ≠ .ready) (k : Nat) : MainRun pol pending k s s := by
  refine .polls h.toUndisturbed h.seq ?_ k
  rw [h.phase]
  cases ph with
  | ready => exact absurd rfl hph
  | idle | wfr | wff => decide

theorem risen_ilog (h : Waiting .wfr .rising true s) : s.risen.ilog = s.ilog ++ [1] :=
  State.enterInterrupt_ilog_echo h.slot

theorem fallen_ilog (h : Waiting .wff .falling true s) : s.fallen.ilog = s.ilog ++ [1] :=
  State.enterInterrupt_ilog_echo h.slot

theorem fallen_pw (h : Waiting .wff .falling true s) : s.fallen.pw = s.icr := by
  rw [State.fallen, State.setPhase_pw, State.setEdge_pw, State.setPw_pw (s := s.enterInterrupt) h.wf]

/-- After both dispatches PW is the count at the falling edge, and H_ECHO is logged twice. -/
theorem ranged (h : Waiting .wfr .rising false s) (c n : Word) :
    Waiting .ready .rising false ((s.pend c).risen.pend n).fallen ∧ ((s.pend c).risen.pend n).fallen.pw = n ∧
      ((s.pend c).risen.pend n).fallen.ilog = s.ilog ++ [1, 1] := by
  have hfall := (h.pend c).risen.pend n
  refine ⟨hfall.fallen, hfall.fallen_pw, ?_⟩
  rw [hfall.fallen_ilog, State.pend_ilog, (h.pend c).risen_ilog, State.pend_ilog, List.append_assoc]
  rfl

/-! ### The stretches of a wait -/

variable {ts rest : List Turn}

/-- An edge of the armed polarity, and the latency before its dispatch. -/
theorem runFor_edge (h : Waiting ph pol false s) (hph : ph ≠ .ready) (hts : StretchTurns pol true ts) (c : Word)
    (g : Bool) : runFor (.echo pol :: ts).length (s.retime c g (.echo pol :: (ts ++ rest))) =
      .next ((s.pend c).retime (c + BitVec.ofNat 16 (ts.count .clk)) (gieAfter g ts) rest) := by
  have hr : s.recognizes pol = true := by simp [State.recognizes, h.edge, h.clocked]
  exact MainRun.runFor_cons (step_echo_retime hr c g _) ((h.pend c).polls hph _) hts

/-- The rising edge's dispatch, and the pulse: TCNT counts from 0. -/
theorem runFor_rising (h : Waiting .wfr .rising true s) (hts : StretchTurns .falling false ts) (c : Word) :
    runFor (.irq :: ts).length (s.retime c true (.irq :: (ts ++ rest))) =
      .next (s.risen.retime (BitVec.ofNat 16 (ts.count .clk)) (gieAfter true ts) rest) := by
  have hstep := step_irq_rising h.slot h.icf h.icie h.phase c (ts ++ rest)
  rw [MainRun.runFor_cons hstep (h.risen.polls (by decide) _) hts, BitVec.zero_add]

/-- The falling edge's dispatch, and the end of the call. -/
theorem runFor_falling (h : Waiting .wff .falling true s) (hf : s.cfg.fCpuHz ≠ 0)
    (hts : StretchTurns .rising false ts) (hcount : ts.count .main = 4) (c : Word) :
    ∃ c', runFor (.irq :: ts).length (s.retime c true (.irq :: (ts ++ rest))) =
      .next (s.fallen.closed.retime c' (gieAfter true ts) rest) := by
  have hstep := step_irq_falling h.slot h.icf h.icie h.phase c (ts ++ rest)
  have hmain := mainRun_closed h.fallen.toUndisturbed h.fallen.seq h.fallen.phase hf
  exact ⟨_, MainRun.runFor_cons hstep (hcount ▸ hmain) hts⟩

end Waiting

/-! ### The session -/

/-- The call, RD1 to RD5, and the beginning of the wait. -/
theorem runFor_opening {s : State} {opening before rest : List Turn} (hwf : Memory.wf s.mem = true)
    (hq : s.seq = .none) (hidle : s.phase = Phase.idle.code) (hslot : s.slot = Config.hEcho)
    (hicie : s.icie = true) (hs : Undisturbed s.edge false s) (hopening : StretchTurns s.edge false opening)
    (hcount : opening.count .main = 4) (hbefore : StretchTurns .rising false before)
    (hts : s.turns = .issue 0x90 :: (opening ++ .main :: (before ++ rest))) :
    ∃ c, runFor (.issue 0x90 :: opening ++ .main :: before).length s =
      .next (s.waiting.retime c (gieAfter (gieAfter s.gie opening) before) rest) := by
  have hcall := step_issue hts decode_usReadDistance hq (execUsReadDistance_free (s := s.setTurns _) hq hidle)
  have hopen := MainRun.runFor_cons (t := .issue 0x90) (s' := s.goto .rd1) (c := s.tcnt) (g := s.gie) hcall
    (hcount ▸ mainRun_opened hs) hopening
  have harm : microStep s.opened = .next s.waiting := rfl
  have hpolls := (Waiting.start hwf hslot hicie hs).polls (by decide) (before.count .main)
  have hstep := step_main_retime (by simp [State.opened]) harm
  exact ⟨_, runFor_append hopen (MainRun.runFor_cons (t := .main) (hstep _ _ _) hpolls hbefore)⟩

/-- The turns of a session, from the call to its end. -/
theorem runFor_session {s : State} {opening before riseLatency pulse fallLatency closing rest : List Turn}
    (hwf : Memory.wf s.mem = true) (hq : s.seq = .none) (hidle : s.phase = Phase.idle.code)
    (hslot : s.slot = Config.hEcho) (hicie : s.icie = true) (hs : Undisturbed s.edge false s)
    (hf : s.cfg.fCpuHz ≠ 0) (hopening : StretchTurns s.edge false opening) (hcount₁ : opening.count .main = 4)
    (hbefore : StretchTurns .rising false before) (hrise : StretchTurns .rising true riseLatency)
    (hpulse : StretchTurns .falling false pulse) (hfall : StretchTurns .falling true fallLatency)
    (hclosing : StretchTurns .rising false closing) (hcount₂ : closing.count .main = 4)
    (hg₁ : gieAfter (gieAfter (gieAfter s.gie opening) before) riseLatency = true)
    (hg₂ : gieAfter (gieAfter true pulse) fallLatency = true)
    (hts : s.turns = sessionTurns opening before riseLatency pulse fallLatency closing ++ rest) :
    ∃ c c', runFor (sessionTurns opening before riseLatency pulse fallLatency closing).length s =
      .next (((s.waiting.pend c).risen.pend (BitVec.ofNat 16 (pulse.count .clk))).fallen.closed.retime c'
        (gieAfter true closing) rest) := by
  simp only [sessionTurns, List.append_assoc, List.cons_append] at hts
  have hw := Waiting.start hwf hslot hicie hs
  obtain ⟨c, hopen⟩ := runFor_opening hwf hq hidle hslot hicie hs hopening hcount₁ hbefore hts
  have hedge₁ := hw.runFor_edge
    (rest := .irq :: (pulse ++ .echo .falling :: (fallLatency ++ .irq :: (closing ++ rest)))) (by decide) hrise c
    (gieAfter (gieAfter s.gie opening) before)
  rw [hg₁] at hedge₁
  have hdispatch₁ := (hw.pend c).runFor_rising (rest := .echo .falling :: (fallLatency ++ .irq :: (closing ++ rest)))
    hpulse (c + BitVec.ofNat 16 (riseLatency.count .clk))
  have hedge₂ := (hw.pend c).risen.runFor_edge (rest := .irq :: (closing ++ rest)) (by decide) hfall
    (BitVec.ofNat 16 (pulse.count .clk)) (gieAfter true pulse)
  rw [hg₂] at hedge₂
  obtain ⟨c', hdispatch₂⟩ := ((hw.pend c).risen.pend (BitVec.ofNat 16 (pulse.count .clk))).runFor_falling
    (rest := rest) (by simpa using hf) hclosing hcount₂
    (BitVec.ofNat 16 (pulse.count .clk) + BitVec.ofNat 16 (fallLatency.count .clk))
  have hfirst := runFor_append (runFor_append hopen hedge₁) hdispatch₁
  exact ⟨c, c', runFor_append (runFor_append hfirst hedge₂) hdispatch₂⟩

/-- Settles O53: the session runs through its stretches, and what it leaves is read off the wait's end and the
frames of the states it goes through. -/
theorem sessionMeasuresThePulse : Obligations.SessionMeasuresThePulse := by
  intro s opening before riseLatency pulse fallLatency closing rest ⟨hwf, hfits⟩ hq hslot hicie hicf hpresc hf
    hopening hcount₁ hbefore hrise hpulse hfall hclosing hcount₂ hg₁ hg₂ hts
  have hidle : s.phase = Phase.idle.code := by simpa only [hq, phaseFits] using hfits
  have hs : Undisturbed s.edge false s := ⟨rfl, State.clocked_iff.2 hpresc, hicf⟩
  simp only [gieAfter_append] at hg₁ hg₂ ⊢
  rw [hg₁] at hg₂ ⊢
  rw [hg₂]
  obtain ⟨c, c', hrun⟩ := runFor_session hwf hq hidle hslot hicie hs hf (stretchTurns_of_quiet hopening) hcount₁
    (stretchTurns_of_quiet hbefore) (stretchTurns_of_latency hrise) (stretchTurns_of_quiet hpulse)
    (stretchTurns_of_latency hfall) (stretchTurns_of_quiet hclosing) hcount₂ hg₁ hg₂ hts
  obtain ⟨hwait, hpw, hilog⟩ := (Waiting.start hwf hslot hicie hs).ranged c (BitVec.ofNat 16 (pulse.count .clk))
  have hrange := s.waiting.ranged_changesOnly c (BitVec.ofNat 16 (pulse.count .clk))
  generalize ((s.waiting.pend c).risen.pend (BitVec.ofNat 16 (pulse.count .clk))).fallen = y at *
  have hframe := s.waiting_changesOnly.trans hrange
  have hresp : y.closed.resp = s.resp ++
      [convert (BitVec.ofNat 16 (pulse.count .clk)) (divisor s.presc) s.cfg.fCpuHz s.cfg.calOffset] := by
    rw [State.closed_resp, hpw, hframe .resp (by decide), hframe .presc (by decide), hframe .cfg (by decide)]
  have hlogged : y.ilog = s.ilog ++ [1, 1] := hilog.trans (by rw [s.waiting_changesOnly .ilog (by decide)])
  have hend := y.closed_changesOnly.trans (State.retime_changesOnly y.closed c' (gieAfter true closing) rest)
  refine ⟨_, hrun, (hend.pw_eq (by decide) (by decide)).trans hpw, hresp, rfl, State.closed_phase hwait.wf,
    (hend .edge (by decide)).trans hwait.edge, (hend .icf (by decide)).trans hwait.icf,
    (hend .trig (by decide)).trans (hrange .trig (by decide)), rfl, (hend .ilog (by decide)).trans hlogged, rfl,
    fun f hfs => ?_⟩
  by_cases hseq : f = .seq
  · subst hseq
    exact hq.symm
  · by_cases hphase : f = .byte .phase
    · subst hphase
      exact (State.closed_phase hwait.wf).trans hidle.symm
    · exact (hframe.trans hend) f (by simp_all)

end Sys2Proof.Machine
